-- ==== Sys2Proof/Word.lean ====
section
/-! DEFINITION. The word types of the engine (00_scope.md R4, R5, R6). -/

namespace Sys2Proof

/-- A general register, a timer, a byte of memory (00_scope.md R4, V_WIDTH and TIMER_WIDTH). -/
abbrev Byte := BitVec 8

/-- An instruction word, I, PC, a stack slot (00_scope.md R4, I_WIDTH and PC_WIDTH). -/
abbrev Word := BitVec 16

/-- A framebuffer row; bit 63 is the leftmost column (10_state.md R27). -/
abbrev Row := BitVec 64

/-- A four-bit field: a register number, a key number, a sprite height (00_scope.md R8). -/
abbrev Nibble := BitVec 4

/-- The twelve-bit field NNN (00_scope.md R8). -/
abbrev Imm12 := BitVec 12

end Sys2Proof
end

