-- ==== Sys2Proof/Syntax.lean ====
section
/-! DEFINITION. The 34 instructions of spec/opcode_table.json (30_encoding.md R57), with their operand fields
(30_encoding.md R54, R55). -/

namespace Sys2Proof

/-- One constructor per row of spec/opcode_table.json, in the table's order. `x` and `y` are register numbers, `n`,
`nn` and `nnn` unsigned immediates (00_scope.md R8). A field named `ign` holds the four bits the decoder does not
look at (30_encoding.md R58): no meaning reads it, but it keeps the word whole, and the fault record of 00EE holds the
word as fetched (60_exceptions.md R124). Log 21. -/
inductive Instr where
  /-- `00E0` CLS -/
  | cls (ign : Nibble)
  /-- `00EE` RET -/
  | ret (ign : Nibble)
  /-- `1NNN` JP nnn -/
  | jp (nnn : Imm12)
  /-- `2NNN` CALL nnn -/
  | call (nnn : Imm12)
  /-- `3XNN` SE Vx, nn -/
  | seImm (x : Nibble) (nn : Byte)
  /-- `4XNN` SNE Vx, nn -/
  | sneImm (x : Nibble) (nn : Byte)
  /-- `5XY0` SE Vx, Vy -/
  | seReg (x y ign : Nibble)
  /-- `6XNN` LD Vx, nn -/
  | ldImm (x : Nibble) (nn : Byte)
  /-- `7XNN` ADD Vx, nn -/
  | addImm (x : Nibble) (nn : Byte)
  /-- `8XY0` LD Vx, Vy -/
  | ldReg (x y : Nibble)
  /-- `8XY1` OR Vx, Vy -/
  | orReg (x y : Nibble)
  /-- `8XY2` AND Vx, Vy -/
  | andReg (x y : Nibble)
  /-- `8XY3` XOR Vx, Vy -/
  | xorReg (x y : Nibble)
  /-- `8XY4` ADD Vx, Vy -/
  | addReg (x y : Nibble)
  /-- `8XY5` SUB Vx, Vy -/
  | subReg (x y : Nibble)
  /-- `8XY6` SHR Vx, Vy (the Y field is encoded and not used, 30_encoding.md R62) -/
  | shrReg (x y : Nibble)
  /-- `8XY7` SUBN Vx, Vy -/
  | subnReg (x y : Nibble)
  /-- `8XYE` SHL Vx, Vy (the Y field is encoded and not used, 30_encoding.md R62) -/
  | shlReg (x y : Nibble)
  /-- `9XY0` SNE Vx, Vy -/
  | sneReg (x y ign : Nibble)
  /-- `ANNN` LD I, nnn -/
  | ldI (nnn : Imm12)
  /-- `BNNN` JP V0, nnn -/
  | jpV0 (nnn : Imm12)
  /-- `CXNN` RND Vx, nn -/
  | rnd (x : Nibble) (nn : Byte)
  /-- `DXYN` DRW Vx, Vy, n -/
  | drw (x y n : Nibble)
  /-- `EX9E` SKP Vx -/
  | skp (x : Nibble)
  /-- `EXA1` SKNP Vx -/
  | sknp (x : Nibble)
  /-- `FX07` LD Vx, DT -/
  | ldVxDt (x : Nibble)
  /-- `FX0A` LD Vx, K -/
  | ldVxKey (x : Nibble)
  /-- `FX15` LD DT, Vx -/
  | ldDtVx (x : Nibble)
  /-- `FX18` LD ST, Vx -/
  | ldStVx (x : Nibble)
  /-- `FX1E` ADD I, Vx -/
  | addI (x : Nibble)
  /-- `FX29` LD F, Vx -/
  | ldFont (x : Nibble)
  /-- `FX33` LD B, Vx -/
  | ldBcd (x : Nibble)
  /-- `FX55` LD [I], Vx -/
  | storeRegs (x : Nibble)
  /-- `FX65` LD Vx, [I] -/
  | loadRegs (x : Nibble)
  deriving DecidableEq, Repr

end Sys2Proof
end

