-- ==== Sys2Proof/WellFormed.lean ====
section
/-! DEFINITION. The canonical instructions: those an assembler writes (30_encoding.md R63). -/

namespace Sys2Proof

/-- 30_encoding.md R63: an assembler "puts 0 in every bit rule R58 ignores". Every other bound on an operand is the
type of its field. The decoder yields the instructions with other ignored bits too, and the machine runs them all
(30_encoding.md R58); nothing in the machine asks this question. -/
def Instr.wellFormed : Instr → Bool
  | .cls ign => ign == 0
  | .ret ign => ign == 0
  | .seReg _ _ ign => ign == 0
  | .sneReg _ _ ign => ign == 0
  | .jp _ | .call _ | .ldI _ | .jpV0 _ => true
  | .seImm _ _ | .sneImm _ _ | .ldImm _ _ | .addImm _ _ | .rnd _ _ => true
  | .ldReg _ _ | .orReg _ _ | .andReg _ _ | .xorReg _ _ | .addReg _ _ | .subReg _ _ | .shrReg _ _ | .subnReg _ _
  | .shlReg _ _ => true
  | .drw _ _ _ => true
  | .skp _ | .sknp _ => true
  | .ldVxDt _ | .ldVxKey _ | .ldDtVx _ | .ldStVx _ | .addI _ | .ldFont _ | .ldBcd _ | .storeRegs _
  | .loadRegs _ => true

end Sys2Proof
end

