-- ==== Sys2Proof/Decode.lean ====
section
/-! DEFINITION. The decoder (30_encoding.md R53 to R61), total on words and on bytes, and the encoder after it. -/

namespace Sys2Proof

/-! ## Fields of an instruction word (00_scope.md R8, 30_encoding.md R54) -/

/-- F = w[15:12]. -/
def fieldF (w : Word) : Nibble := w.extractLsb' 12 4
/-- X = w[11:8]. -/
def fieldX (w : Word) : Nibble := w.extractLsb' 8 4
/-- Y = w[7:4]. -/
def fieldY (w : Word) : Nibble := w.extractLsb' 4 4
/-- N = w[3:0]. -/
def fieldN (w : Word) : Nibble := w.extractLsb' 0 4
/-- NN = w[7:0]. -/
def fieldNN (w : Word) : Byte := w.extractLsb' 0 8
/-- NNN = w[11:0]. -/
def fieldNNN (w : Word) : Imm12 := w.extractLsb' 0 12

/-! ## Decoding -/

/-- The normalized opcode key of a word (30_encoding.md R56). -/
def key (w : Word) : Word :=
  if fieldF w = 0x0#4 then w &&& 0x00FF#16
  else if fieldF w = 0x8#4 then w &&& 0xF00F#16
  else if fieldF w = 0xE#4 ∨ fieldF w = 0xF#4 then w &&& 0xF0FF#16
  else w &&& 0xF000#16

/-- What the decoder says of a word: one of the 34 instructions, or unknown (30_encoding.md R61). -/
inductive Verdict where
  /-- The key is in the dispatch map. -/
  | instr (i : Instr)
  /-- "no dispatcher entry for the normalized key" (30_encoding.md R59). -/
  | unknownInstruction
  deriving DecidableEq, Repr

/-- The dispatch map of 30_encoding.md R57 with each instruction's operands taken from the word (R55). -/
def dispatchMap (k w : Word) : Verdict :=
  match k.toNat with
  | 0x00E0 => .instr (.cls (fieldX w))
  | 0x00EE => .instr (.ret (fieldX w))
  | 0x1000 => .instr (.jp (fieldNNN w))
  | 0x2000 => .instr (.call (fieldNNN w))
  | 0x3000 => .instr (.seImm (fieldX w) (fieldNN w))
  | 0x4000 => .instr (.sneImm (fieldX w) (fieldNN w))
  | 0x5000 => .instr (.seReg (fieldX w) (fieldY w) (fieldN w))
  | 0x6000 => .instr (.ldImm (fieldX w) (fieldNN w))
  | 0x7000 => .instr (.addImm (fieldX w) (fieldNN w))
  | 0x8000 => .instr (.ldReg (fieldX w) (fieldY w))
  | 0x8001 => .instr (.orReg (fieldX w) (fieldY w))
  | 0x8002 => .instr (.andReg (fieldX w) (fieldY w))
  | 0x8003 => .instr (.xorReg (fieldX w) (fieldY w))
  | 0x8004 => .instr (.addReg (fieldX w) (fieldY w))
  | 0x8005 => .instr (.subReg (fieldX w) (fieldY w))
  | 0x8006 => .instr (.shrReg (fieldX w) (fieldY w))
  | 0x8007 => .instr (.subnReg (fieldX w) (fieldY w))
  | 0x800E => .instr (.shlReg (fieldX w) (fieldY w))
  | 0x9000 => .instr (.sneReg (fieldX w) (fieldY w) (fieldN w))
  | 0xA000 => .instr (.ldI (fieldNNN w))
  | 0xB000 => .instr (.jpV0 (fieldNNN w))
  | 0xC000 => .instr (.rnd (fieldX w) (fieldNN w))
  | 0xD000 => .instr (.drw (fieldX w) (fieldY w) (fieldN w))
  | 0xE09E => .instr (.skp (fieldX w))
  | 0xE0A1 => .instr (.sknp (fieldX w))
  | 0xF007 => .instr (.ldVxDt (fieldX w))
  | 0xF00A => .instr (.ldVxKey (fieldX w))
  | 0xF015 => .instr (.ldDtVx (fieldX w))
  | 0xF018 => .instr (.ldStVx (fieldX w))
  | 0xF01E => .instr (.addI (fieldX w))
  | 0xF029 => .instr (.ldFont (fieldX w))
  | 0xF033 => .instr (.ldBcd (fieldX w))
  | 0xF055 => .instr (.storeRegs (fieldX w))
  | 0xF065 => .instr (.loadRegs (fieldX w))
  | _ => .unknownInstruction

/-- Decoding: normalise, then look the key up (30_encoding.md R56, R57; 40_engine_cycle.md R70). -/
def decode (w : Word) : Verdict := dispatchMap (key w) w

/-- The word two bytes make, the first the high byte (20_memory.md R42). -/
def wordOfBytes (hi lo : Byte) : Word := hi.setWidth 16 <<< 8 ||| lo.setWidth 16

/-- What the decoder says of a list of bytes: it takes the first two (30_encoding.md R53). -/
inductive ByteVerdict where
  /-- An instruction and the bytes after it. -/
  | instr (i : Instr) (rest : List Byte)
  /-- The first word is no instruction. -/
  | unknownInstruction (w : Word)
  /-- Fewer than two bytes. -/
  | truncated
  deriving DecidableEq, Repr

/-- Decoding of bytes, total (30_encoding.md R53, R61). -/
def decodeBytes : List Byte → ByteVerdict
  | hi :: lo :: rest =>
    match decode (wordOfBytes hi lo) with
    | .instr i => .instr i rest
    | .unknownInstruction => .unknownInstruction (wordOfBytes hi lo)
  | [_] => .truncated
  | [] => .truncated

/-! ## Encoding -/

/-- The word with the four nibbles f, x, y, n, the first the most significant (00_scope.md R5). -/
def wordOfNibbles (f x y n : Nibble) : Word :=
  f.setWidth 16 <<< 12 ||| x.setWidth 16 <<< 8 ||| y.setWidth 16 <<< 4 ||| n.setWidth 16
/-- The word of format XNN or X (30_encoding.md R54): family, X and the low byte. -/
def wordOfByte (f x : Nibble) (nn : Byte) : Word :=
  f.setWidth 16 <<< 12 ||| x.setWidth 16 <<< 8 ||| nn.setWidth 16
/-- The word of format NNN (30_encoding.md R54): family and NNN. -/
def wordOfImm12 (f : Nibble) (nnn : Imm12) : Word := f.setWidth 16 <<< 12 ||| nnn.setWidth 16

/-- The word of an instruction, from the formats and patterns of 30_encoding.md R54, R57. -/
def encode : Instr → Word
  | .cls ign => wordOfByte 0x0 ign 0xE0
  | .ret ign => wordOfByte 0x0 ign 0xEE
  | .jp nnn => wordOfImm12 0x1 nnn
  | .call nnn => wordOfImm12 0x2 nnn
  | .seImm x nn => wordOfByte 0x3 x nn
  | .sneImm x nn => wordOfByte 0x4 x nn
  | .seReg x y ign => wordOfNibbles 0x5 x y ign
  | .ldImm x nn => wordOfByte 0x6 x nn
  | .addImm x nn => wordOfByte 0x7 x nn
  | .ldReg x y => wordOfNibbles 0x8 x y 0x0
  | .orReg x y => wordOfNibbles 0x8 x y 0x1
  | .andReg x y => wordOfNibbles 0x8 x y 0x2
  | .xorReg x y => wordOfNibbles 0x8 x y 0x3
  | .addReg x y => wordOfNibbles 0x8 x y 0x4
  | .subReg x y => wordOfNibbles 0x8 x y 0x5
  | .shrReg x y => wordOfNibbles 0x8 x y 0x6
  | .subnReg x y => wordOfNibbles 0x8 x y 0x7
  | .shlReg x y => wordOfNibbles 0x8 x y 0xE
  | .sneReg x y ign => wordOfNibbles 0x9 x y ign
  | .ldI nnn => wordOfImm12 0xA nnn
  | .jpV0 nnn => wordOfImm12 0xB nnn
  | .rnd x nn => wordOfByte 0xC x nn
  | .drw x y n => wordOfNibbles 0xD x y n
  | .skp x => wordOfByte 0xE x 0x9E
  | .sknp x => wordOfByte 0xE x 0xA1
  | .ldVxDt x => wordOfByte 0xF x 0x07
  | .ldVxKey x => wordOfByte 0xF x 0x0A
  | .ldDtVx x => wordOfByte 0xF x 0x15
  | .ldStVx x => wordOfByte 0xF x 0x18
  | .addI x => wordOfByte 0xF x 0x1E
  | .ldFont x => wordOfByte 0xF x 0x29
  | .ldBcd x => wordOfByte 0xF x 0x33
  | .storeRegs x => wordOfByte 0xF x 0x55
  | .loadRegs x => wordOfByte 0xF x 0x65

/-- The high byte of a word, stored first (20_memory.md R42). -/
def highByte (w : Word) : Byte := w.extractLsb' 8 8
/-- The low byte of a word, stored second (20_memory.md R42). -/
def lowByte (w : Word) : Byte := w.extractLsb' 0 8

/-- The two bytes of an instruction in memory order (20_memory.md R42, 30_encoding.md R53). -/
def encodeBytes (i : Instr) : List Byte := [highByte (encode i), lowByte (encode i)]

/-! ## The host's reading of the opcode table -/

/-- The word whose low nbits bits are w's and whose other bits are 0. -/
def tableWord (nbits w : Nat) : Word := BitVec.ofNat 16 (w % 2 ^ nbits)

/-- The instruction the decoder reads from the bytes of the table's word w. -/
def decodeTableWord (nbits w : Nat) : Option Instr :=
  match decodeBytes [highByte (tableWord nbits w), lowByte (tableWord nbits w)] with
  | .instr i _ => some i
  | .unknownInstruction _ => none
  | .truncated => none

end Sys2Proof
end

