-- ==== Sys2Proof/Config.lean ====
section
/-! DEFINITION. What is fixed for the machine (00_scope.md R4) and the one free value (43_register_alu.md R102).
The parameters with a default a machine may differ in (FONT, FX1E_SETS_VF, LOADSTORE_ADVANCES_I) stand in
Machine/Params.lean; a machine's FONT is a field of State (log 31). -/

namespace Sys2Proof.Config

/-- MEM_SIZE: addresses 0..4095 (00_scope.md R4, 20_memory.md R37). -/
abbrev memSize : Nat := 4096

/-- FONT_BASE: where reset writes FONT (00_scope.md R4, 10_state.md R33). -/
abbrev fontBase : Nat := 0x000

/-- LOAD_ADDR: where the program image starts and where PC points after reset (00_scope.md R4). -/
abbrev loadAddr : Nat := 0x200

/-- MAX_IMAGE: 4096 - 0x200 bytes (00_scope.md R4, 70_reset_and_hazards.md R141). -/
abbrev maxImage : Nat := 3584

/-- The random byte of the n-th CXNN (00_scope.md R7, 43_register_alu.md R102): a free value, "any value, not one
the machine computes". It has no body, so a claim about it holds for every byte. Log 2. -/
opaque freeRandom : Nat → Byte

end Sys2Proof.Config
end

