-- ==== Sys2Proof/Machine/Params.lean ====
section
/-! DEFINITION. The named parameters of 00_scope.md R4 that a machine may set otherwise, at the spec's defaults. -/

namespace Sys2Proof.Machine

/-- FX1E_SETS_VF (00_scope.md R4, 92_eei_decisions.md D8), default false. Log 6. -/
def fx1eSetsVf : Bool := false

/-- LOADSTORE_ADVANCES_I (00_scope.md R4, 92_eei_decisions.md D9), default false. Log 7. -/
def loadStoreAdvancesI : Bool := false

/-- The default table of FONT (10_state.md R33, 92_eei_decisions.md D16), glyph d at bytes 5*d .. 5*d+4. The machine's own
FONT is `State.font`. Log 8. -/
def defaultFontBytes : List Byte :=
  [0xF0, 0x90, 0x90, 0x90, 0xF0] ++ [0x20, 0x60, 0x20, 0x20, 0x70] ++ [0xF0, 0x10, 0xF0, 0x80, 0xF0] ++
  [0xF0, 0x10, 0xF0, 0x10, 0xF0] ++ [0x90, 0x90, 0xF0, 0x10, 0x10] ++ [0xF0, 0x80, 0xF0, 0x10, 0xF0] ++
  [0xF0, 0x80, 0xF0, 0x90, 0xF0] ++ [0xF0, 0x10, 0x20, 0x40, 0x40] ++ [0xF0, 0x90, 0xF0, 0x90, 0xF0] ++
  [0xF0, 0x90, 0xF0, 0x10, 0xF0] ++ [0xF0, 0x90, 0xF0, 0x90, 0x90] ++ [0xE0, 0x90, 0xE0, 0x90, 0xE0] ++
  [0xF0, 0x80, 0x80, 0x80, 0xF0] ++ [0xE0, 0x90, 0x90, 0x90, 0xE0] ++ [0xF0, 0x80, 0xF0, 0x80, 0xF0] ++
  [0xF0, 0x80, 0xF0, 0x80, 0x80]

/-- The default of FONT. -/
def defaultFont : Vector Byte 80 := ⟨defaultFontBytes.toArray, rfl⟩

end Sys2Proof.Machine
end

