-- ==== Sys2Proof/Machine/Memory.lean ====
section
/-! DEFINITION. Memory as plain data: the bytes that differ from the reset contents, in one canonical form
(20_memory.md R37, R48). -/

namespace Sys2Proof.Machine

/-- The (address, byte) pairs in rising order of address; an unlisted address reads as `Memory.background`. -/
abbrev Memory := List Host.Cell

/-- What an address reads as when no byte is listed for it: the reset contents without an image under the default FONT,
0 from 0x050 on (10_state.md R33, R34; 20_memory.md R48). It is how the list is kept, no bound on what memory holds: the
reset of a machine with another FONT lists the bytes that differ. Log 29. -/
def Memory.background (a : Nat) : Byte := defaultFontBytes.getD a 0

/-- The byte at an address (20_memory.md R40; the range check stands in the block operations of Machine/Ops.lean). -/
def Memory.read (m : Memory) (a : Nat) : Byte :=
  match m with
  | [] => Memory.background a
  | (a', b) :: rest => if a' = a then b else Memory.read rest a

/-- The memory with byte b at address a (20_memory.md R41), canonical again. -/
def Memory.write (m : Memory) (a : Nat) (b : Byte) : Memory :=
  match m with
  | [] => if b = Memory.background a then [] else [(a, b)]
  | (a', b') :: rest =>
    if a < a' then if b = Memory.background a then (a', b') :: rest else (a, b) :: (a', b') :: rest
    else if a = a' then if b = Memory.background a then rest else (a, b) :: rest
    else (a', b') :: Memory.write rest a b

/-- The bytes written at a, a + 1, ... in ascending order (20_memory.md R42, R45). -/
def Memory.writeBytes (m : Memory) (a : Nat) (bs : List Byte) : Memory :=
  match bs with
  | [] => m
  | b :: rest => Memory.writeBytes (m.write a b) (a + 1) rest

/-- The n bytes at a, a + 1, ... in ascending order (20_memory.md R42, R45). -/
def Memory.readBytes (m : Memory) (a n : Nat) : List Byte :=
  match n with
  | 0 => []
  | n + 1 => m.read a :: Memory.readBytes m (a + 1) n

/-- Every listed address is at least lo, below 4096 and above the one before it, and no listed byte is what the
address reads as unlisted. -/
def Memory.wfFrom (lo : Nat) (m : Memory) : Bool :=
  match m with
  | [] => true
  | (a, b) :: rest =>
    decide (lo ≤ a) && decide (a < Config.memSize) && decide (b ≠ Memory.background a) && Memory.wfFrom (a + 1) rest

/-- The canonical form of memory. -/
def Memory.wf (m : Memory) : Bool := Memory.wfFrom 0 m

end Sys2Proof.Machine
end

