-- ==== Sys2Proof/Machine/State.lean ====
section
/-! DEFINITION. The state of the block (10_state.md), the reasons a step stops, and reset. -/

namespace Sys2Proof.Machine

/-- The run status (10_state.md R29). -/
inductive Status where
  /-- The engine takes steps. -/
  | running
  /-- Suspended in FX0A with destination register x (46_timers_keys.md R117). -/
  | waitingKey (x : Nibble)
  /-- A step raised a fault; only reset leaves it (60_exceptions.md R125). -/
  | faulted
  /-- The host asked for a stop; only reset leaves it (60_exceptions.md R132). -/
  | stopped
  deriving DecidableEq, Repr

/-- The fault causes (60_exceptions.md R123). -/
inductive FaultCode where
  | fetchOutOfRange
  | unknownInstruction
  | stackOverflow
  | stackUnderflow
  | memOutOfRange
  | keyOutOfRange
  deriving DecidableEq, Repr

/-- The fault record (60_exceptions.md R124). -/
structure FaultRecord where
  /-- The cause. -/
  code : FaultCode
  /-- The address of the faulting instruction; the out-of-range PC of a fetch. -/
  pc : Word
  /-- The fetched word, absent for FETCH_OUT_OF_RANGE. -/
  word : Option Word
  /-- The stack pointer at the fault. -/
  sp : Fin 16
  /-- The first out-of-range address, for MEM_OUT_OF_RANGE. -/
  addr : Option Nat
  /-- The value of V[X], for KEY_OUT_OF_RANGE. -/
  key : Option Byte
  deriving DecidableEq, Repr

/-- The host's inputs (00_scope.md R10; 60_exceptions.md R131). RAND is `Config.freeRandom`. -/
inductive HostEvent where
  /-- `reset(image)` (70_reset_and_hazards.md R139 to R141). -/
  | reset (image : List Byte)
  /-- `key_event(k, pressed)`, k in 0..15 (46_timers_keys.md R120). -/
  | keyEvent (k : Nibble) (pressed : Bool)
  /-- `timer_tick` (46_timers_keys.md R121). -/
  | timerTick
  /-- `stop_request` (60_exceptions.md R132). -/
  | stopRequest
  deriving DecidableEq, Repr

/-- Who moves next (40_engine_cycle.md R75: an engine step, then any number of host events). Log 1. -/
inductive Turn where
  /-- The engine takes a step, if its status lets it. -/
  | engine
  /-- The host's event is taken. -/
  | host (e : HostEvent)
  deriving DecidableEq, Repr

/-- Everything the spec gives the machine (10_state.md R34), its parameter FONT (R33), and the model's own fields `draws` and `schedule`. -/
structure State where
  /-- V0..VF (10_state.md R15); VF is the flag register (R16). -/
  v : Vector Byte 16
  /-- The address register I (10_state.md R18). -/
  i : Word
  /-- The program counter (10_state.md R19). -/
  pc : Word
  /-- The stack pointer, the last filled slot (10_state.md R23). -/
  sp : Fin 16
  /-- The call stack (10_state.md R22). -/
  stack : Vector Word 16
  /-- The delay timer (10_state.md R25). -/
  dt : Byte
  /-- The sound timer (10_state.md R25). -/
  st : Byte
  /-- The logical key flags (10_state.md R26). -/
  key : Vector Bool 16
  /-- The framebuffer (10_state.md R27). -/
  fb : Vector Row 32
  /-- The memory (20_memory.md R37). -/
  mem : Memory
  /-- The run status (10_state.md R29). -/
  status : Status
  /-- The fault record, empty until a fault (10_state.md R30). -/
  faultRecord : Option FaultRecord
  /-- The redraw output (10_state.md R31). -/
  redraw : Bool
  /-- The machine's FONT, the parameter that reset writes at 0x000..0x04F (10_state.md R33, 92_eei_decisions.md D16): any 80
  bytes, changed by no step. Log 31. -/
  font : Vector Byte 80
  /-- The model's own: how many random bytes CXNN has taken. Log 2. -/
  draws : Nat
  /-- The model's own: the turns to come, oldest first; empty means the engine moves. Log 1. -/
  schedule : List Turn
  deriving DecidableEq, Repr

/-- Why a step has no next state. Log 3. -/
inductive Fault where
  /-- Raised by step when the status is Faulted and nothing is scheduled: "A Faulted engine has no further step, ever"
  (60_exceptions.md R125). Safe: the machine does stop there. -/
  | engineFaulted
  /-- Raised by step when the status is Stopped and nothing is scheduled: "A Stopped engine has no further step"
  (60_exceptions.md R132). Safe: the machine does stop there. -/
  | engineStopped
  deriving DecidableEq, Repr

/-- Why an instruction has no meaning. -/
inductive Refusal where
  /-- Raised by an arm of exec for an instruction with no meaning yet; no arm does. Safe: nothing is claimed of it. -/
  | notModelled (mnemonic : String)
  deriving DecidableEq, Repr

/-- The machine after reset with no image and with the default FONT (10_state.md R34, 70_reset_and_hazards.md R140; for any
FONT: `resetWithFont`); a program comes in by
`HostEvent.reset`. Log 19. -/
def State.reset : State where
  v := Vector.replicate 16 0
  i := 0
  pc := 0x200
  sp := 0
  stack := Vector.replicate 16 0
  dt := 0
  st := 0
  key := Vector.replicate 16 false
  fb := Vector.replicate 32 0
  mem := []
  status := .running
  faultRecord := none
  redraw := false
  font := defaultFont
  draws := 0
  schedule := []

end Sys2Proof.Machine
end

