-- ==== Sys2Proof/Machine/Operands.lean ====
section
/-! DEFINITION. The operand forms: registers, immediates, key numbers, block addresses (00_scope.md R7, R8;
30_encoding.md R55; 44_index_memory.md R103). -/

namespace Sys2Proof.Machine

/-- `V[x]` (10_state.md R15). -/
def State.getV (s : State) (x : Nibble) : Byte := s.v[x.toNat]'(x.isLt)

/-- VF, the flag register's number (10_state.md R16). -/
def vf : Nibble := 0xF

/-- V0, the register BNNN adds (41_control_flow.md R82). -/
def v0 : Nibble := 0x0

/-- V0..Vx in ascending order (44_index_memory.md R108). -/
def State.regsUpTo (s : State) (x : Nibble) : List Byte := s.v.toList.take (x.toNat + 1)

/-- `zext_16` of a byte (00_scope.md R6). -/
def zextByte (b : Byte) : Word := b.setWidth 16

/-- `zext_16` of NNN (30_encoding.md R55). -/
def zextImm12 (nnn : Imm12) : Word := nnn.setWidth 16

/-- `zext_8` of a key number. -/
def zextNibble (k : Nibble) : Byte := k.setWidth 8

/-- `stack[j]` (10_state.md R22). -/
def State.getSlot (s : State) (j : Fin 16) : Word := s.stack[j]

/-- `key[k]` (10_state.md R26). -/
def State.getKey (s : State) (k : Nibble) : Bool := s.key[k.toNat]'(k.isLt)

/-- The key a register value names, none from 16 on (42_skips.md R87). -/
def keyIndex (b : Byte) : Option Nibble := if b.toNat < 16 then some (b.setWidth 4) else none

/-- `MemRead(a, 1)` of an address in range (20_memory.md R40). -/
def State.readByte (s : State) (a : Nat) : Byte := s.mem.read a

/-- The n addresses from a on all exist; with n = 0 nothing is accessed (44_index_memory.md R103, 45_display.md R114). -/
def blockInRange (a : Word) (n : Nat) : Bool := n == 0 || decide (a.toNat + n ≤ Config.memSize)

/-- The first address of a block that does not exist: `max(I, 4096)` (44_index_memory.md R103). -/
def firstOutOfRange (a : Word) : Nat := max a.toNat Config.memSize

/-- Hundreds, tens and ones of a byte (44_index_memory.md R107). -/
def bcdDigits (b : Byte) : List Byte :=
  [BitVec.ofNat 8 (b.toNat / 100), BitVec.ofNat 8 (b.toNat / 10 % 10), BitVec.ofNat 8 (b.toNat % 10)]

/-- `rotr_64(v, n)` (00_scope.md R6). -/
def rotr64 (v : Row) (n : Nat) : Row := (v >>> (n % 64)) ||| (v <<< (64 - n % 64))

/-- The row pattern of a sprite byte drawn at column x (45_display.md R110). -/
def spriteRow (b x : Byte) : Row := rotr64 (b.setWidth 64 <<< 56) x.toNat

/-- The pixel at row r and column c, column 0 leftmost (10_state.md R27). -/
def State.pixel (s : State) (r : Fin 32) (c : Nat) : Bool := s.fb[r].getMsbD c

end Sys2Proof.Machine
end

