-- ==== Sys2Proof/Machine/Flags.lean ====
section
/-! DEFINITION. The flags VF takes (10_state.md R16, 43_register_alu.md R89, R90, 44_index_memory.md R105). -/

namespace Sys2Proof.Machine

/-- VF's value for a flag: 1 or 0. -/
def flagByte (c : Bool) : Byte := if c then 1 else 0

/-- 8XY4: 1 iff a + b ≥ 256 (43_register_alu.md R97). -/
def carryOut (a b : Byte) : Bool := decide (256 ≤ a.toNat + b.toNat)

/-- 8XY5 and 8XY7: m - s needs no borrow iff m ≥ s (43_register_alu.md R90). -/
def noBorrow (m s : Byte) : Bool := decide (s.toNat ≤ m.toNat)

/-- 8XY6: the bit shifted out to the right (43_register_alu.md R99). -/
def shiftedOutRight (a : Byte) : Bool := a.getLsbD 0

/-- 8XYE: the bit shifted out to the left (43_register_alu.md R101). -/
def shiftedOutLeft (a : Byte) : Bool := a.getMsbD 0

/-- FX1E where FX1E_SETS_VF is true: 1 iff the unwrapped sum exceeds 0x0FFF (44_index_memory.md R105). -/
def indexCarry (i : Word) (b : Byte) : Bool := decide (0x0FFF < i.toNat + b.toNat)

end Sys2Proof.Machine
end

