-- ==== Sys2Proof/Machine/Ops.lean ====
section
/-! DEFINITION. The named operations every meaning is written with: one update per field, the program-counter
post-effects, fault entry, the call stack, the block accesses to memory, the flag-writing result. -/

namespace Sys2Proof.Machine

/-- What a step answers. -/
abbrev Answer := Host.Outcome State Fault Refusal

/-! ## One update per field -/

/-- `V[x] <- b` (10_state.md R15). -/
def State.setV (s : State) (x : Nibble) (b : Byte) : State := { s with v := s.v.set x.toNat b x.isLt }
/-- `I <- a` (10_state.md R18). -/
def State.setI (s : State) (a : Word) : State := { s with i := a }
/-- `PC <- a` (10_state.md R20). -/
def State.setPc (s : State) (a : Word) : State := { s with pc := a }
/-- `SP <- n` (10_state.md R23). -/
def State.setSp (s : State) (n : Fin 16) : State := { s with sp := n }
/-- `stack[j] <- a` (10_state.md R22). -/
def State.setSlot (s : State) (j : Fin 16) (a : Word) : State := { s with stack := s.stack.set j a }
/-- `DT <- b` (10_state.md R25). -/
def State.setDt (s : State) (b : Byte) : State := { s with dt := b }
/-- `ST <- b` (10_state.md R25). -/
def State.setSt (s : State) (b : Byte) : State := { s with st := b }
/-- `key[k] <- p` (10_state.md R26). -/
def State.setKey (s : State) (k : Nibble) (p : Bool) : State := { s with key := s.key.set k.toNat p k.isLt }
/-- The framebuffer replaced (10_state.md R28). -/
def State.setFb (s : State) (f : Vector Row 32) : State := { s with fb := f }
/-- The memory replaced (20_memory.md R41). -/
def State.setMem (s : State) (m : Memory) : State := { s with mem := m }
/-- `status <- q` (10_state.md R29). -/
def State.setStatus (s : State) (q : Status) : State := { s with status := q }
/-- `redraw <- b` (10_state.md R31). -/
def State.setRedraw (s : State) (b : Bool) : State := { s with redraw := b }
/-- The same block with another FONT for its resets (10_state.md R33); no instruction and no event does this. Log 31. -/
def State.setFont (s : State) (f : Vector Byte 80) : State := { s with font := f }
/-- n random bytes have been taken (log 2). -/
def State.setDraws (s : State) (n : Nat) : State := { s with draws := n }
/-- The turns to come (log 1). -/
def State.setSchedule (s : State) (l : List Turn) : State := { s with schedule := l }

/-! ## The program-counter post-effect (10_state.md R20, 40_engine_cycle.md R72, R73) -/

/-- `increment()`: the default class. -/
def State.advance (s : State) : State := s.setPc (s.pc + 2)

/-- The skip class: `skip(1)` if the condition holds, else `increment()`. -/
def State.skipIf (s : State) (c : Bool) : State := s.setPc (s.pc + if c then 4 else 2)

/-! ## Fault entry (60_exceptions.md R125) -/

/-- status <- Faulted; the record is written (R124); redraw <- false; "nothing else changes". There is no return from a
fault (60_exceptions.md R127), so no operation stands beside this one. Logs 3, 9, 10. -/
def takeFault (code : FaultCode) (word : Option Word) (addr : Option Nat) (k : Option Byte) (s : State) : State :=
  { s with
    status := .faulted
    faultRecord := some { code := code, pc := s.pc, word := word, sp := s.sp, addr := addr, key := k }
    redraw := false }

/-! ## The call stack (10_state.md R24) -/

/-- `push(a)`: none where it faults, at SP = 15. -/
def State.push (s : State) (a : Word) : Option State :=
  if h : s.sp.val + 1 < 16 then some ((s.setSp ⟨s.sp.val + 1, h⟩).setSlot ⟨s.sp.val + 1, h⟩ a) else none

/-- `pop()`: the popped value and the state after it, none where it faults, at SP = 0; the slot is not cleared. -/
def State.pop (s : State) : Option (Word × State) :=
  if s.sp.val = 0 then none else some (s.getSlot s.sp, s.setSp ⟨s.sp.val - 1, by omega⟩)

/-! ## Block accesses at I (44_index_memory.md R103): the whole range is checked first -/

/-- The n bytes at I, none where one of them does not exist. -/
def State.readBlock (s : State) (n : Nat) : Option (List Byte) :=
  if blockInRange s.i n then some (s.mem.readBytes s.i.toNat n) else none

/-- The bytes stored at I, none where one of the addresses does not exist. -/
def State.writeBlock (s : State) (bs : List Byte) : Option State :=
  if blockInRange s.i bs.length then some (s.setMem (s.mem.writeBytes s.i.toNat bs)) else none

/-- `V[x], V[x+1], ... <- bytes` (44_index_memory.md R109). -/
def State.loadRegsFrom (s : State) (x : Nibble) (bs : List Byte) : State :=
  match bs with
  | [] => s
  | b :: rest => (s.setV x b).loadRegsFrom (x + 1) rest

/-- The last line of FX55 and FX65 (44_index_memory.md R108, R109): I unchanged, or I + X + 1 where
LOADSTORE_ADVANCES_I is true. -/
def State.advanceIndex (s : State) (advances : Bool) (x : Nibble) : State :=
  if advances then s.setI (s.i + x.setWidth 16 + 1) else s

/-! ## Results in registers -/

/-- A result without a flag, then the default post-effect (43_register_alu.md R89). -/
def State.result (s : State) (x : Nibble) (b : Byte) : State := (s.setV x b).advance

/-- A result, then VF "as its last effect", then the default post-effect (10_state.md R16, R17; 43_register_alu.md R89). -/
def State.resultWithFlag (s : State) (x : Nibble) (b : Byte) (c : Bool) : State :=
  ((s.setV x b).setV vf (flagByte c)).advance

end Sys2Proof.Machine
end

