-- ==== Sys2Proof/Machine/ControlFlow.lean ====
section
/-! DEFINITION. Return, jump, call, jump plus V0 (41_control_flow.md R79 to R82). -/

namespace Sys2Proof.Machine

/-- `00EE` (41_control_flow.md R79): PC is the popped value, "no increment". `ign` only goes into the fault record's word. -/
def execRet (ign : Nibble) (s : State) : Answer :=
  match s.pop with
  | some (a, t) => .next (t.setPc a)
  | none => .next (takeFault .stackUnderflow (some (encode (.ret ign))) none none s)

/-- `1NNN` (41_control_flow.md R80). -/
def execJp (nnn : Imm12) (s : State) : Answer := .next (s.setPc (zextImm12 nnn))

/-- `2NNN` (41_control_flow.md R81): pushes the address of the 2NNN itself. -/
def execCall (nnn : Imm12) (s : State) : Answer :=
  match s.push s.pc with
  | some t => .next (t.setPc (zextImm12 nnn))
  | none => .next (takeFault .stackOverflow (some (encode (.call nnn))) none none s)

/-- `BNNN` (41_control_flow.md R82): not truncated to 12 bits. -/
def execJpV0 (nnn : Imm12) (s : State) : Answer := .next (s.setPc (zextByte (s.getV v0) + zextImm12 nnn))

end Sys2Proof.Machine
end

