-- ==== Sys2Proof/Machine/IndexMemory.lean ====
section
/-! DEFINITION. The address register and memory transfers (44_index_memory.md R103 to R109). -/

namespace Sys2Proof.Machine

/-- `ANNN` (44_index_memory.md R104). -/
def execLdI (nnn : Imm12) (s : State) : Answer := .next (s.setI (zextImm12 nnn)).advance

/-- FX1E for either value of FX1E_SETS_VF (44_index_memory.md R105): I wraps at 16 bits; VF is written, last, only
where the parameter is true. -/
def addToIndex (setsVf : Bool) (x : Nibble) (s : State) : State :=
  if setsVf then
    ((s.setI (s.i + zextByte (s.getV x))).setV vf (flagByte (indexCarry s.i (s.getV x)))).advance
  else (s.setI (s.i + zextByte (s.getV x))).advance

/-- `FX1E` (44_index_memory.md R105). Log 6. -/
def execAddI (x : Nibble) (s : State) : Answer := .next (addToIndex fx1eSetsVf x s)

/-- `FX29` (44_index_memory.md R106): V[X] is not reduced to its low nibble. -/
def execLdFont (x : Nibble) (s : State) : Answer := .next (s.setI (5 * zextByte (s.getV x))).advance

/-- MEM_OUT_OF_RANGE of the instruction with word w at the first address that does not exist
(44_index_memory.md R103). Logs 9, 10. -/
def memFault (w : Word) (s : State) : State :=
  takeFault .memOutOfRange (some w) (some (firstOutOfRange s.i)) none s

/-- `FX33` (44_index_memory.md R107). -/
def execLdBcd (x : Nibble) (s : State) : Answer :=
  match s.writeBlock (bcdDigits (s.getV x)) with
  | some t => .next t.advance
  | none => .next (memFault (encode (.ldBcd x)) s)

/-- FX55 for either value of LOADSTORE_ADVANCES_I (44_index_memory.md R108). -/
def storeRegisters (advances : Bool) (x : Nibble) (s : State) : Answer :=
  match s.writeBlock (s.regsUpTo x) with
  | some t => .next (t.advanceIndex advances x).advance
  | none => .next (memFault (encode (.storeRegs x)) s)

/-- `FX55` (44_index_memory.md R108). Log 7. -/
def execStoreRegs (x : Nibble) (s : State) : Answer := storeRegisters loadStoreAdvancesI x s

/-- FX65 for either value of LOADSTORE_ADVANCES_I (44_index_memory.md R109). -/
def loadRegisters (advances : Bool) (x : Nibble) (s : State) : Answer :=
  match s.readBlock (x.toNat + 1) with
  | some bs => .next ((s.loadRegsFrom 0 bs).advanceIndex advances x).advance
  | none => .next (memFault (encode (.loadRegs x)) s)

/-- `FX65` (44_index_memory.md R109). Log 7. -/
def execLoadRegs (x : Nibble) (s : State) : Answer := loadRegisters loadStoreAdvancesI x s

end Sys2Proof.Machine
end

