-- ==== Sys2Proof/Machine/Display.lean ====
section
/-! DEFINITION. Framebuffer, XOR draw and collision detector (45_display.md R110 to R115). -/

namespace Sys2Proof.Machine

/-- The framebuffer row of sprite row r drawn at y: `(y + r) mod 32` (45_display.md R110). -/
def drawRow (y : Byte) (r : Nat) : Fin 32 := ⟨(y.toNat + r) % 32, Nat.mod_lt _ (by decide)⟩

/-- The draw of the sprite rows r, r + 1, ... (45_display.md R110): each row's pattern is XORed in unconditionally; the
flag says whether a lit pixel was hit (R111). -/
def drawFrom (x y : Byte) (r : Nat) (sprite : List Byte) (fb : Vector Row 32) : Vector Row 32 × Bool :=
  match sprite with
  | [] => (fb, false)
  | b :: rest =>
    let hit := fb[drawRow y r] &&& spriteRow b x != 0
    let after := drawFrom x y (r + 1) rest (fb.set (drawRow y r) (fb[drawRow y r] ^^^ spriteRow b x))
    (after.1, hit || after.2)

/-- `draw(x, y, sprite)` (45_display.md R110): the framebuffer after it, and "collided". -/
def drawSprite (x y : Byte) (sprite : List Byte) (fb : Vector Row 32) : Vector Row 32 × Bool :=
  drawFrom x y 0 sprite fb

/-- `00E0` (45_display.md R113); redraw is set, changed bits or not (10_state.md R31). Log 17. -/
def execCls (s : State) : Answer := .next ((s.setFb (Vector.replicate 32 0)).setRedraw true).advance

/-- `DXYN` (45_display.md R114): coordinates are read before VF is written, last; redraw is set (10_state.md R31). -/
def execDrw (x y n : Nibble) (s : State) : Answer :=
  match s.readBlock n.toNat with
  | some sprite =>
    let drawn := drawSprite (s.getV x) (s.getV y) sprite s.fb
    .next (((s.setFb drawn.1).setV vf (flagByte drawn.2)).setRedraw true).advance
  | none => .next (memFault (encode (.drw x y n)) s)

end Sys2Proof.Machine
end

