-- ==== Sys2Proof/Machine/RegisterAlu.lean ====
section
/-! DEFINITION. The register ALU (43_register_alu.md R89 to R102). -/

namespace Sys2Proof.Machine

/-- `6XNN` (43_register_alu.md R91). -/
def execLdImm (x : Nibble) (nn : Byte) (s : State) : Answer := .next (s.result x nn)

/-- `7XNN` (43_register_alu.md R92): wraps, no flag. -/
def execAddImm (x : Nibble) (nn : Byte) (s : State) : Answer := .next (s.result x (s.getV x + nn))

/-- `8XY0` (43_register_alu.md R93). -/
def execLdReg (x y : Nibble) (s : State) : Answer := .next (s.result x (s.getV y))

/-- `8XY1` (43_register_alu.md R94). -/
def execOrReg (x y : Nibble) (s : State) : Answer := .next (s.result x (s.getV x ||| s.getV y))

/-- `8XY2` (43_register_alu.md R95). -/
def execAndReg (x y : Nibble) (s : State) : Answer := .next (s.result x (s.getV x &&& s.getV y))

/-- `8XY3` (43_register_alu.md R96). -/
def execXorReg (x y : Nibble) (s : State) : Answer := .next (s.result x (s.getV x ^^^ s.getV y))

/-- `8XY4` (43_register_alu.md R97). -/
def execAddReg (x y : Nibble) (s : State) : Answer :=
  .next (s.resultWithFlag x (s.getV x + s.getV y) (carryOut (s.getV x) (s.getV y)))

/-- `8XY5` (43_register_alu.md R98). -/
def execSubReg (x y : Nibble) (s : State) : Answer :=
  .next (s.resultWithFlag x (s.getV x - s.getV y) (noBorrow (s.getV x) (s.getV y)))

/-- `8XY6` (43_register_alu.md R99): the Y field is not used (30_encoding.md R62), so it is no argument. -/
def execShrReg (x : Nibble) (s : State) : Answer :=
  .next (s.resultWithFlag x (s.getV x >>> 1) (shiftedOutRight (s.getV x)))

/-- `8XY7` (43_register_alu.md R100). -/
def execSubnReg (x y : Nibble) (s : State) : Answer :=
  .next (s.resultWithFlag x (s.getV y - s.getV x) (noBorrow (s.getV y) (s.getV x)))

/-- `8XYE` (43_register_alu.md R101): the Y field is not used (30_encoding.md R62), so it is no argument. -/
def execShlReg (x : Nibble) (s : State) : Answer :=
  .next (s.resultWithFlag x (s.getV x <<< 1) (shiftedOutLeft (s.getV x)))

/-- The effect of CXNN for the random byte r (43_register_alu.md R102); one random byte is used up. -/
def randomInto (r : Byte) (x : Nibble) (nn : Byte) (s : State) : State :=
  (s.setDraws (s.draws + 1)).result x (r &&& nn)

/-- `CXNN` (43_register_alu.md R102): r is the free byte of this execution. Log 2. -/
def execRnd (x : Nibble) (nn : Byte) (s : State) : Answer :=
  .next (randomInto (Config.freeRandom s.draws) x nn s)

end Sys2Proof.Machine
end

