-- ==== Sys2Proof/Machine/Skips.lean ====
section
/-! DEFINITION. Conditional skips (42_skips.md R83 to R88). -/

namespace Sys2Proof.Machine

/-- `3XNN` (42_skips.md R83). -/
def execSeImm (x : Nibble) (nn : Byte) (s : State) : Answer := .next (s.skipIf (s.getV x == nn))

/-- `4XNN` (42_skips.md R84). -/
def execSneImm (x : Nibble) (nn : Byte) (s : State) : Answer := .next (s.skipIf (s.getV x != nn))

/-- `5XY0` (42_skips.md R85). -/
def execSeReg (x y : Nibble) (s : State) : Answer := .next (s.skipIf (s.getV x == s.getV y))

/-- `9XY0` (42_skips.md R86). -/
def execSneReg (x y : Nibble) (s : State) : Answer := .next (s.skipIf (s.getV x != s.getV y))

/-- The shared shape of EX9E and EXA1: skip if key V[X] is as wanted; KEY_OUT_OF_RANGE from 16 on
(42_skips.md R87, R88). Log 13. -/
def skipOnKey (wanted : Bool) (x : Nibble) (w : Word) (s : State) : Answer :=
  match keyIndex (s.getV x) with
  | some k => .next (s.skipIf (s.getKey k == wanted))
  | none => .next (takeFault .keyOutOfRange (some w) none (some (s.getV x)) s)

/-- `EX9E` (42_skips.md R87). -/
def execSkp (x : Nibble) (s : State) : Answer := skipOnKey true x (encode (.skp x)) s

/-- `EXA1` (42_skips.md R88). -/
def execSknp (x : Nibble) (s : State) : Answer := skipOnKey false x (encode (.sknp x)) s

end Sys2Proof.Machine
end

