-- ==== Sys2Proof/Machine/TimersKeys.lean ====
section
/-! DEFINITION. Timers and key wait (46_timers_keys.md R116 to R119). -/

namespace Sys2Proof.Machine

/-- `FX07` (46_timers_keys.md R116). -/
def execLdVxDt (x : Nibble) (s : State) : Answer := .next (s.result x s.dt)

/-- `FX0A` (46_timers_keys.md R117): the engine suspends; V[X] and PC are written when a press ends the wait
(`keyEvent` in Machine/HostEvents.lean). Log 14. -/
def execLdVxKey (x : Nibble) (s : State) : Answer := .next (s.setStatus (.waitingKey x))

/-- `FX15` (46_timers_keys.md R118). -/
def execLdDtVx (x : Nibble) (s : State) : Answer := .next (s.setDt (s.getV x)).advance

/-- `FX18` (46_timers_keys.md R119). -/
def execLdStVx (x : Nibble) (s : State) : Answer := .next (s.setSt (s.getV x)).advance

end Sys2Proof.Machine
end

