-- ==== Sys2Proof/Machine/HostEvents.lean ====
section
/-! DEFINITION. The host's events (46_timers_keys.md R117, R120, R121; 60_exceptions.md R129, R131, R132;
70_reset_and_hazards.md R139 to R141). -/

namespace Sys2Proof.Machine

/-- The run is over: only reset leaves these (10_state.md R29, 60_exceptions.md R125, R132). -/
def Status.final : Status → Bool
  | .running => false
  | .waitingKey _ => false
  | .faulted => true
  | .stopped => true

/-- `key_event(k, pressed)`: `key[k] <- pressed`; a press transition during the key wait also ends it
(46_timers_keys.md R117, R120), in any status (60_exceptions.md R131). Log 14. -/
def keyEvent (k : Nibble) (pressed : Bool) (s : State) : State :=
  match s.status with
  | .waitingKey x =>
    if pressed && !s.getKey k then
      ((((s.setKey k true).setV x (zextNibble k)).advance).setStatus .running)
    else s.setKey k pressed
  | .running => s.setKey k pressed
  | .faulted => s.setKey k pressed
  | .stopped => s.setKey k pressed

/-- One less, never below zero (46_timers_keys.md R121). -/
def tickDown (b : Byte) : Byte := if b = 0 then 0 else b - 1

/-- `timer_tick` (46_timers_keys.md R121). It is taken between steps and during the wait (60_exceptions.md R131); once the
run is over it does nothing. Log 15. -/
def timerTick (s : State) : State :=
  if s.status.final then s else (s.setDt (tickDown s.dt)).setSt (tickDown s.st)

/-- `stop_request` (60_exceptions.md R132): the status becomes Stopped; once the run is over it does nothing. Log 15. -/
def stopRequest (s : State) : State := if s.status.final then s else s.setStatus .stopped

/-- The reset state of a machine whose FONT is f, with no image (10_state.md R33, R34; 70_reset_and_hazards.md R140): FONT
written at FONT_BASE, whatever its bytes. Logs 8, 31. -/
def resetWithFont (f : Vector Byte 80) : State :=
  (State.reset.setFont f).setMem (Memory.writeBytes [] Config.fontBase f.toList)

/-- The reset state of a machine whose FONT is f, with a program image (70_reset_and_hazards.md R140, R141). -/
def resetWith (f : Vector Byte 80) (image : List Byte) : State :=
  (resetWithFont f).setMem ((resetWithFont f).mem.writeBytes Config.loadAddr image)

/-- `reset(image)` (70_reset_and_hazards.md R139 to R141): an image of more than 3584 bytes is refused and the block stays
as it was. FONT is the machine's; the model's own fields go on. Log 18. -/
def resetEvent (image : List Byte) (s : State) : State :=
  if image.length ≤ Config.maxImage then ((resetWith s.font image).setDraws s.draws).setSchedule s.schedule else s

/-- A host event taken between engine steps or during the wait (00_scope.md R9, R10). -/
def hostEvent (e : HostEvent) (s : State) : State :=
  match e with
  | .reset image => resetEvent image s
  | .keyEvent k pressed => keyEvent k pressed s
  | .timerTick => timerTick s
  | .stopRequest => stopRequest s

end Sys2Proof.Machine
end

