-- ==== Sys2Proof/Machine/Outputs.lean ====
section
/-! DEFINITION. The outputs of the block (00_scope.md R11). -/

namespace Sys2Proof.Machine

/-- `sound_on`, true exactly when ST is nonzero (10_state.md R32). -/
def State.soundOn (s : State) : Bool := s.st != 0

/-- The number of a fault cause (60_exceptions.md R123). -/
def FaultCode.number : FaultCode → Nat
  | .fetchOutOfRange => 1
  | .unknownInstruction => 2
  | .stackOverflow => 3
  | .stackUnderflow => 4
  | .memOutOfRange => 5
  | .keyOutOfRange => 6

/-- What the host reads between steps (00_scope.md R11, 60_exceptions.md R131): reads have no side effect. -/
structure Outputs where
  framebuffer : Vector Row 32
  redraw : Bool
  delayTimer : Byte
  soundTimer : Byte
  soundOn : Bool
  status : Status
  faultRecord : Option FaultRecord
  deriving DecidableEq, Repr

/-- The outputs of a state. -/
def State.outputs (s : State) : Outputs :=
  { framebuffer := s.fb, redraw := s.redraw, delayTimer := s.dt, soundTimer := s.st, soundOn := s.soundOn,
    status := s.status, faultRecord := s.faultRecord }

end Sys2Proof.Machine
end

