-- ==== Sys2Proof/Machine/Engine.lean ====
section
/-! DEFINITION. The engine step: fetch, decode, execute (40_engine_cycle.md R67 to R71). -/

namespace Sys2Proof.Machine

/-- The word at an address, big-endian (20_memory.md R42). -/
def State.wordAt (s : State) (a : Nat) : Word := wordOfBytes (s.readByte a) (s.readByte (a + 1))

/-- `fetch()`: none where it faults, from PC = 4095 on (40_engine_cycle.md R68, R69); PC need not be even
(20_memory.md R44). Logs 11, 12. -/
def State.fetch (s : State) : Option Word := if s.pc.toNat ≥ 4095 then none else some (s.wordAt s.pc.toNat)

/-- The engine step of a running engine (40_engine_cycle.md R67): redraw <- false, fetch, decode, execute with the
post-effect; the first stage that faults ends it (60_exceptions.md R128). -/
def engineStep (s : State) : Answer :=
  let s0 := s.setRedraw false
  match s0.fetch with
  | none => .next (takeFault .fetchOutOfRange none none none s0)
  | some w =>
    match decode w with
    | .instr i => exec i s0
    | .unknownInstruction => .next (takeFault .unknownInstruction (some w) none none s0)

/-- The engine's turn: a step if the status is Running; else the engine has no step (40_engine_cycle.md R67) and the
turn passes. -/
def engineTurn (s : State) : Answer :=
  match s.status with
  | .running => engineStep s
  | .waitingKey _ => .next s
  | .faulted => .next s
  | .stopped => .next s

/-- Nothing is scheduled: a running engine steps, a waiting one hangs in its state ("a hang, not a fault",
46_timers_keys.md R117), and a run that is over has no next state (60_exceptions.md R125, R132). Logs 3, 4. -/
def engineAlone (s : State) : Answer :=
  match s.status with
  | .running => engineStep s
  | .waitingKey _ => .next s
  | .faulted => .fault .engineFaulted
  | .stopped => .fault .engineStopped

/-- Where a word is placed so that the engine fetches it: PC, or the load address where PC is out of the fetch's range. -/
def fetchPlace (s : State) : Word := if s.pc.toNat ≥ 4095 then BitVec.ofNat 16 Config.loadAddr else s.pc

/-- The schedule with the engine's turn first. -/
def engineFirst (l : List Turn) : List Turn :=
  match l with
  | .host e :: rest => .engine :: .host e :: rest
  | .engine :: rest => .engine :: rest
  | [] => []

/-- The state with the word placed for the next fetch, the engine running and its turn next. Log 19. -/
def placeWord (s : State) (w : Word) : State :=
  { s with
    pc := fetchPlace s
    mem := s.mem.writeBytes (fetchPlace s).toNat [highByte w, lowByte w]
    status := .running
    schedule := engineFirst s.schedule }

end Sys2Proof.Machine
end

