-- ==== Sys2Proof/Machine/Step.lean ====
section
/-! DEFINITION. The step of the block: the next turn of the schedule, or the engine alone (00_scope.md R9,
40_engine_cycle.md R75). -/

namespace Sys2Proof.Machine

/-- One transition: the first scheduled turn, a host event or the engine's; with nothing scheduled, the engine's. Log 1. -/
def step (s : State) : Host.Outcome State Fault Refusal :=
  match s.schedule with
  | .host e :: rest => .next (hostEvent e (s.setSchedule rest))
  | .engine :: rest => engineTurn (s.setSchedule rest)
  | [] => engineAlone s

/-- s with the table's word w stored where step fetches its next instruction. Log 19. -/
def State.withFetchWord (s : State) (nbits w : Nat) : State := placeWord s (tableWord nbits w)

end Sys2Proof.Machine
end

