-- ==== Sys2Proof/Safety.lean ====
section
/-! DEFINITION. The terms claims are stated in: frames, who moves, the fetched word, the invariant of the block. -/

namespace Sys2Proof.Machine

/-! ## Frames -/

/-- Every byte of memory reads as before. -/
def SameMemory (s t : State) : Prop := ∀ a, t.readByte a = s.readByte a

/-- Every byte of memory but the n from address a on reads as before. -/
def SameMemoryOutside (a n : Nat) (s t : State) : Prop := ∀ c, c < a ∨ a + n ≤ c → t.readByte c = s.readByte c

/-- Every general register not listed is as before. -/
def SameRegsBut (dest : List Nibble) (s t : State) : Prop := ∀ y, y ∉ dest → t.getV y = s.getV y

/-- Only PC may differ. -/
def OnlyPc (s t : State) : Prop := t = { s with pc := t.pc } ∧ SameMemory s t

/-- Only the listed general registers and PC may differ. -/
def OnlyRegsPc (dest : List Nibble) (s t : State) : Prop :=
  t = { s with v := t.v, pc := t.pc } ∧ SameRegsBut dest s t ∧ SameMemory s t

/-- Only I and PC may differ. -/
def OnlyIndexPc (s t : State) : Prop := t = { s with i := t.i, pc := t.pc } ∧ SameMemory s t

/-- Only the memory's n bytes from address a on and PC may differ. -/
def OnlyBytesPc (a n : Nat) (s t : State) : Prop := t = { s with mem := t.mem, pc := t.pc } ∧ SameMemoryOutside a n s t

/-- Fault entry (60_exceptions.md R125): the status, the record, redraw, and nothing else. -/
def FaultEntered (code : FaultCode) (word : Option Word) (addr : Option Nat) (k : Option Byte) (s t : State) : Prop :=
  t = { s with
        status := .faulted
        redraw := false
        faultRecord := some { code := code, pc := s.pc, word := word, sp := s.sp, addr := addr, key := k } }

/-! ## Steps -/

/-- The next transition is an engine step: the engine runs and no host event comes first (40_engine_cycle.md R67). -/
def EngineMoves (s : State) : Prop := s.status = .running ∧ ∀ e rest, s.schedule ≠ .host e :: rest

/-- The state the engine step starts from: redraw false (40_engine_cycle.md R67), its turn taken off the schedule. -/
def engineEntry (s : State) : State := { s with redraw := false, schedule := s.schedule.tail }

/-- PC is in the fetch's range and the two bytes there are w's, the high byte first (40_engine_cycle.md R68). -/
def Fetches (s : State) (w : Word) : Prop :=
  s.pc.toNat ≤ 4094 ∧ w.toNat = (s.readByte s.pc.toNat).toNat * 256 + (s.readByte (s.pc.toNat + 1)).toNat

/-- What address a reads as once the n bytes of f are stored from I on (44_index_memory.md R107, R108). -/
def byteAfterStore (s : State) (n : Nat) (f : Nat → Byte) (a : Nat) : Byte :=
  if s.i.toNat ≤ a ∧ a < s.i.toNat + n then f (a - s.i.toNat) else s.readByte a

/-- In t, the word fetched at any address has the bytes of s with the n bytes of f stored from I on (20_memory.md R52). -/
def SeenByFetch (s : State) (n : Nat) (f : Nat → Byte) (t : State) : Prop :=
  ∀ (a w : Word), a.toNat ≤ 4094 →
    w.toNat = (byteAfterStore s n f a.toNat).toNat * 256 + (byteAfterStore s n f (a.toNat + 1)).toNat →
    Fetches { t with pc := a } w

/-- Every word that matches under the mask decodes to the instruction made of its fields (30_encoding.md R58). -/
def DecodesAs (mask pattern : Word) (mk : Word → Instr) : Prop := ∀ w, w &&& mask = pattern → decode w = .instr (mk w)

/-! ## Pixels -/

/-- The sprite's pixel at framebuffer row r and column c, for a sprite of n rows drawn at (x, y): row j of the sprite
lands on row (y + j) mod 32, bit 7-k of a row on column (x + k) mod 64 (45_display.md R110). -/
def spritePixel (x y : Byte) (n : Nat) (row : Nat → Byte) (r : Fin 32) (c : Nat) : Bool :=
  let j := (r.val + 32 - y.toNat % 32) % 32
  let k := (c + 64 - x.toNat % 64) % 64
  decide (j < n) && decide (k < 8) && (row j).getMsbD k

/-! ## Instruction classes (40_engine_cycle.md R72) -/

/-- The six flag-writing instructions (10_state.md R16). -/
def writesFlag : Instr → Bool
  | .addReg _ _ | .subReg _ _ | .shrReg _ _ | .subnReg _ _ | .shlReg _ _ | .drw _ _ _ => true
  | _ => false

/-- The instructions whose destination VF is, as data (10_state.md R16). -/
def loadsVf : Instr → Bool
  | .ldImm x _ | .addImm x _ | .ldReg x _ | .orReg x _ | .andReg x _ | .xorReg x _ | .rnd x _ | .ldVxDt x
  | .loadRegs x => x == vf
  | _ => false

/-- The control class: the handler writes PC itself. -/
def isControl : Instr → Bool
  | .ret _ | .jp _ | .call _ | .jpV0 _ => true
  | _ => false

/-- The skip class. -/
def isSkip : Instr → Bool
  | .seImm _ _ | .sneImm _ _ | .seReg _ _ _ | .sneReg _ _ _ | .skp _ | .sknp _ => true
  | _ => false

/-- 00E0 and DXYN (10_state.md R28). -/
def touchesDisplay : Instr → Bool
  | .cls _ | .drw _ _ _ => true
  | _ => false

/-- FX33 and FX55 (20_memory.md R39). -/
def storesBytes : Instr → Bool
  | .ldBcd _ | .storeRegs _ => true
  | _ => false

/-! ## The invariant -/

/-- What every reachable state of the block has: memory in its canonical form; slot 0 of the stack never written
(10_state.md R23) and every slot an address an instruction ran at; PC at most 0x10FE and at most 4094 during the key
wait (10_state.md R21); a fault record exactly when the status is Faulted (10_state.md R30); redraw false in the wait
and after a fault (40_engine_cycle.md R76, 60_exceptions.md R125). -/
structure BlockInv (s : State) : Prop where
  memCanonical : s.mem.wf = true
  slotZero : s.getSlot 0 = 0
  slotsBelow : ∀ j, (s.getSlot j).toNat ≤ 4094
  pcBelow : s.pc.toNat ≤ 0x10FE
  waitPcBelow : ∀ x, s.status = .waitingKey x → s.pc.toNat ≤ 4094
  recordIffFaulted : s.faultRecord.isSome = true ↔ s.status = .faulted
  waitNotRedrawn : ∀ x, s.status = .waitingKey x → s.redraw = false
  faultNotRedrawn : s.status = .faulted → s.redraw = false

end Sys2Proof.Machine
end

