-- ==== Sys2Proof/Certificates/Slice0/Obligations.lean ====
section
/-! DEFINITION. The statements for the provers. -/

open Sys2Proof Sys2Proof.Machine

/-! ## Decoding and encoding -/

/-- At least one word of every family 0 to F, written out from the patterns of 30_encoding.md R57, decodes to its
instruction, and two words of the list of R59 are unknown. -/
def Obligations.SampleWordsDecode : Prop :=
  decode 0b0000000011100000#16 = .instr (.cls 0) ∧ decode 0b0000000011101110#16 = .instr (.ret 0) ∧
  decode 0b0001101010111100#16 = .instr (.jp 0xABC) ∧
  decode 0b0010110111101010#16 = .instr (.call 0xDEA) ∧ decode 0b0011001101000010#16 = .instr (.seImm 3 0x42) ∧
  decode 0b0100001101000010#16 = .instr (.sneImm 3 0x42) ∧
  decode 0b0101000100101111#16 = .instr (.seReg 1 2 0xF) ∧
  decode 0b0110000000000101#16 = .instr (.ldImm 0 5) ∧ decode 0b0111000011111111#16 = .instr (.addImm 0 0xFF) ∧
  decode 0b1000000000010100#16 = .instr (.addReg 0 1) ∧
  decode 0b1001000100100000#16 = .instr (.sneReg 1 2 0) ∧
  decode 0b1010001100000000#16 = .instr (.ldI 0x300) ∧ decode 0b1011001000000000#16 = .instr (.jpV0 0x200) ∧
  decode 0b1100001100001111#16 = .instr (.rnd 3 0x0F) ∧ decode 0b1101101010110010#16 = .instr (.drw 0xA 0xB 2) ∧
  decode 0b1110010110011110#16 = .instr (.skp 5) ∧ decode 0b1111001101010101#16 = .instr (.storeRegs 3) ∧
  decode 0b1000000000001000#16 = .unknownInstruction ∧ decode 0#16 = .unknownInstruction

/-- Encoding loses nothing: the decoder gives every instruction back from its word and from its bytes. That four
instructions carry the bits the decoder ignores is the model's choice (log 21). -/
def Obligations.EncodedInstrDecodesBack : Prop :=
  ∀ i, decode (encode i) = .instr i ∧ ∀ rest, decodeBytes (encodeBytes i ++ rest) = .instr i rest

/-- Decoding loses nothing: the word of the decoded instruction is the word. For 0kE0, 0kEE, 5XYk and 9XYk, whose k the
spec does not decode (30_encoding.md R58), this is the model's choice to keep k in the instruction (log 21). -/
def Obligations.DecodedWordEncodesBack : Prop := ∀ w i, decode w = .instr i → encode i = w

/-- The mask and match of every row of spec/opcode_table.json select its instruction with its fields
(30_encoding.md R58, the spec's derivation from R56 and R57; the ignored bits kept as a field, log 21). -/
def Obligations.MaskAndMatchSelectInstr : Prop :=
  DecodesAs 0xF0FF 0x00E0 (fun w => .cls (fieldX w)) ∧ DecodesAs 0xF0FF 0x00EE (fun w => .ret (fieldX w)) ∧
  DecodesAs 0xF000 0x1000 (fun w => .jp (fieldNNN w)) ∧ DecodesAs 0xF000 0x2000 (fun w => .call (fieldNNN w)) ∧
  DecodesAs 0xF000 0x3000 (fun w => .seImm (fieldX w) (fieldNN w)) ∧
  DecodesAs 0xF000 0x4000 (fun w => .sneImm (fieldX w) (fieldNN w)) ∧
  DecodesAs 0xF000 0x5000 (fun w => .seReg (fieldX w) (fieldY w) (fieldN w)) ∧
  DecodesAs 0xF000 0x6000 (fun w => .ldImm (fieldX w) (fieldNN w)) ∧
  DecodesAs 0xF000 0x7000 (fun w => .addImm (fieldX w) (fieldNN w)) ∧
  DecodesAs 0xF00F 0x8000 (fun w => .ldReg (fieldX w) (fieldY w)) ∧
  DecodesAs 0xF00F 0x8001 (fun w => .orReg (fieldX w) (fieldY w)) ∧
  DecodesAs 0xF00F 0x8002 (fun w => .andReg (fieldX w) (fieldY w)) ∧
  DecodesAs 0xF00F 0x8003 (fun w => .xorReg (fieldX w) (fieldY w)) ∧
  DecodesAs 0xF00F 0x8004 (fun w => .addReg (fieldX w) (fieldY w)) ∧
  DecodesAs 0xF00F 0x8005 (fun w => .subReg (fieldX w) (fieldY w)) ∧
  DecodesAs 0xF00F 0x8006 (fun w => .shrReg (fieldX w) (fieldY w)) ∧
  DecodesAs 0xF00F 0x8007 (fun w => .subnReg (fieldX w) (fieldY w)) ∧
  DecodesAs 0xF00F 0x800E (fun w => .shlReg (fieldX w) (fieldY w)) ∧
  DecodesAs 0xF000 0x9000 (fun w => .sneReg (fieldX w) (fieldY w) (fieldN w)) ∧
  DecodesAs 0xF000 0xA000 (fun w => .ldI (fieldNNN w)) ∧ DecodesAs 0xF000 0xB000 (fun w => .jpV0 (fieldNNN w)) ∧
  DecodesAs 0xF000 0xC000 (fun w => .rnd (fieldX w) (fieldNN w)) ∧
  DecodesAs 0xF000 0xD000 (fun w => .drw (fieldX w) (fieldY w) (fieldN w)) ∧
  DecodesAs 0xF0FF 0xE09E (fun w => .skp (fieldX w)) ∧ DecodesAs 0xF0FF 0xE0A1 (fun w => .sknp (fieldX w)) ∧
  DecodesAs 0xF0FF 0xF007 (fun w => .ldVxDt (fieldX w)) ∧ DecodesAs 0xF0FF 0xF00A (fun w => .ldVxKey (fieldX w)) ∧
  DecodesAs 0xF0FF 0xF015 (fun w => .ldDtVx (fieldX w)) ∧ DecodesAs 0xF0FF 0xF018 (fun w => .ldStVx (fieldX w)) ∧
  DecodesAs 0xF0FF 0xF01E (fun w => .addI (fieldX w)) ∧ DecodesAs 0xF0FF 0xF029 (fun w => .ldFont (fieldX w)) ∧
  DecodesAs 0xF0FF 0xF033 (fun w => .ldBcd (fieldX w)) ∧ DecodesAs 0xF0FF 0xF055 (fun w => .storeRegs (fieldX w)) ∧
  DecodesAs 0xF0FF 0xF065 (fun w => .loadRegs (fieldX w))

/-- The illegal words are exactly those of the list of 30_encoding.md R59. -/
def Obligations.UnknownWordsAreTheListed : Prop :=
  ∀ w, decode w = .unknownInstruction ↔
    (fieldF w = 0x0 ∧ fieldNN w ∉ [0xE0, 0xEE]) ∨
    (fieldF w = 0x8 ∧ fieldN w ∈ [0x8, 0x9, 0xA, 0xB, 0xC, 0xD, 0xF]) ∨
    (fieldF w = 0xE ∧ fieldNN w ∉ [0x9E, 0xA1]) ∨
    (fieldF w = 0xF ∧ fieldNN w ∉ [0x07, 0x0A, 0x15, 0x18, 0x1E, 0x29, 0x33, 0x55, 0x65])

/-! ## The step -/

/-- A running engine runs the instruction it fetches, with redraw false first (40_engine_cycle.md R67, R68). The turn taken
off the schedule is the model's own (log 1). -/
def Obligations.StepRunsDecodedInstr : Prop :=
  ∀ s w i, EngineMoves s → Fetches s w → decode w = .instr i → step s = exec i (engineEntry s)

/-- A fetch from PC = 4095 on enters FETCH_OUT_OF_RANGE (40_engine_cycle.md R68, R69, the spec's decision D6; no other state
changes, D4). -/
def Obligations.FetchBeyondMemoryFaults : Prop :=
  ∀ s, EngineMoves s → 4095 ≤ s.pc.toNat →
    ∃ t, step s = .next t ∧ FaultEntered .fetchOutOfRange none none none (engineEntry s) t

/-- A word that is no instruction enters UNKNOWN_INSTRUCTION with the word and its address (40_engine_cycle.md R71, the spec's
decision D2). -/
def Obligations.UnknownWordFaults : Prop :=
  ∀ s w, EngineMoves s → Fetches s w → decode w = .unknownInstruction →
    ∃ t, step s = .next t ∧ FaultEntered .unknownInstruction (some w) none none (engineEntry s) t

/-- The transitions that are no engine step: a scheduled host event is taken whole (00_scope.md R9); the turn of an engine
that waits, is Faulted or is Stopped passes (40_engine_cycle.md R67, 60_exceptions.md R125, R132); with nothing scheduled a
waiting engine hangs in its state (46_timers_keys.md R117). The schedule is the model's own (logs 1, 3, 4). -/
def Obligations.TurnsWithoutEngineStep : Prop :=
  (∀ s e rest, s.schedule = .host e :: rest → step s = .next (hostEvent e { s with schedule := rest })) ∧
  (∀ s rest, s.status ≠ .running → s.schedule = .engine :: rest → step s = .next { s with schedule := rest }) ∧
  (∀ s x, s.status = .waitingKey x → s.schedule = [] → step s = .next s)

/-- Every instruction answers a next state in every state: no instruction of the table is refused and none stops. That exec
does not look at the status is the model's choice (log 28; 40_engine_cycle.md R67 runs one only in Running), and so is that a
fault entry answers next (log 3). -/
def Obligations.EveryInstrAnswersNext : Prop := ∀ i s, ∃ t, exec i s = .next t

/-- The machine has a next state while its run goes on or a turn is scheduled; else it stops under the name of its status
(60_exceptions.md R125, R132: no further step). That the stop is the outcome `fault` is the model's choice (log 3). -/
def Obligations.StepStopsOnlyAfterTheRun : Prop :=
  (∀ s, s.schedule ≠ [] ∨ s.status ≠ .faulted ∧ s.status ≠ .stopped → ∃ t, step s = .next t) ∧
  (∀ s, s.schedule = [] → s.status = .faulted → step s = .fault .engineFaulted) ∧
  (∀ s, s.schedule = [] → s.status = .stopped → step s = .fault .engineStopped)

/-! ## Control flow -/

/-- 1NNN (41_control_flow.md R80). -/
def Obligations.JumpSetsPc : Prop :=
  DecodesAs 0xF000 0x1000 (fun w => .jp (fieldNNN w)) ∧
  ∀ nnn s, ∃ t, exec (.jp nnn) s = .next t ∧ t.pc.toNat = nnn.toNat ∧ OnlyPc s t

/-- BNNN (41_control_flow.md R82): the sum is exact, not truncated to 12 bits (the spec's decision D6). -/
def Obligations.JumpPlusV0IsExact : Prop :=
  ∀ nnn s, ∃ t, exec (.jpV0 nnn) s = .next t ∧ t.pc.toNat = (s.getV 0).toNat + nnn.toNat ∧ OnlyPc s t

/-- 2NNN below the limit (41_control_flow.md R81, 10_state.md R24): it pushes its own address. -/
def Obligations.CallPushesOwnAddress : Prop :=
  ∀ nnn s, s.sp.val < 15 → ∃ t, exec (.call nnn) s = .next t ∧ t.pc.toNat = nnn.toNat ∧ t.sp.val = s.sp.val + 1 ∧
    t.getSlot t.sp = s.pc ∧ (∀ j, j ≠ t.sp → t.getSlot j = s.getSlot j) ∧
    t = { s with pc := t.pc, sp := t.sp, stack := t.stack } ∧ SameMemory s t

/-- 00EE above 0 (41_control_flow.md R79, 10_state.md R24): PC is the popped value, no increment; the slot is not
cleared. -/
def Obligations.ReturnResumesAtPoppedAddress : Prop :=
  ∀ ign s, 0 < s.sp.val → ∃ t, exec (.ret ign) s = .next t ∧ t.pc = s.getSlot s.sp ∧ t.sp.val + 1 = s.sp.val ∧
    t = { s with pc := t.pc, sp := t.sp } ∧ SameMemory s t

/-- The stack's limits (10_state.md R24, 60_exceptions.md R123): a push at SP = 15 and a pop at SP = 0 fault and change
nothing else (the spec's decision D4). -/
def Obligations.StackLimitsFault : Prop :=
  (∀ nnn s, s.sp.val = 15 → ∃ t, exec (.call nnn) s = .next t ∧
    FaultEntered .stackOverflow (some (encode (.call nnn))) none none s t) ∧
  (∀ ign s, s.sp.val = 0 → ∃ t, exec (.ret ign) s = .next t ∧
    FaultEntered .stackUnderflow (some (encode (.ret ign))) none none s t)

/-- The call and return vector (41_control_flow.md R79, R81; 90_conflicts.md C4): a return after a call resumes AT the
call, with SP as before it. -/
def Obligations.CallThenReturnResumesAtCall : Prop :=
  ∀ nnn ign s, s.sp.val < 15 → ∃ t u, exec (.call nnn) s = .next t ∧ exec (.ret ign) t = .next u ∧
    u.pc = s.pc ∧ u.sp = s.sp ∧ u = { s with stack := u.stack }

/-! ## Skips -/

/-- 3XNN and 4XNN (42_skips.md R83, R84). -/
def Obligations.SkipOnImmediate : Prop :=
  DecodesAs 0xF000 0x3000 (fun w => .seImm (fieldX w) (fieldNN w)) ∧
  DecodesAs 0xF000 0x4000 (fun w => .sneImm (fieldX w) (fieldNN w)) ∧
  ∀ x nn s,
    (∃ t, exec (.seImm x nn) s = .next t ∧ t.pc = s.pc + (if s.getV x = nn then 4 else 2) ∧ OnlyPc s t) ∧
    (∃ t, exec (.sneImm x nn) s = .next t ∧ t.pc = s.pc + (if s.getV x ≠ nn then 4 else 2) ∧ OnlyPc s t)

/-- 5XY0 and 9XY0, whatever the ignored bits (42_skips.md R85, R86). -/
def Obligations.SkipOnRegisters : Prop :=
  DecodesAs 0xF000 0x5000 (fun w => .seReg (fieldX w) (fieldY w) (fieldN w)) ∧
  DecodesAs 0xF000 0x9000 (fun w => .sneReg (fieldX w) (fieldY w) (fieldN w)) ∧
  ∀ x y ign s,
    (∃ t, exec (.seReg x y ign) s = .next t ∧ t.pc = s.pc + (if s.getV x = s.getV y then 4 else 2) ∧ OnlyPc s t) ∧
    (∃ t, exec (.sneReg x y ign) s = .next t ∧ t.pc = s.pc + (if s.getV x ≠ s.getV y then 4 else 2) ∧ OnlyPc s t)

/-- EX9E and EXA1 with a key number below 16 (42_skips.md R87, R88). -/
def Obligations.SkipOnKeyState : Prop :=
  ∀ x k s, s.getV x = zextNibble k →
    (∃ t, exec (.skp x) s = .next t ∧ t.pc = s.pc + (if s.getKey k = true then 4 else 2) ∧ OnlyPc s t) ∧
    (∃ t, exec (.sknp x) s = .next t ∧ t.pc = s.pc + (if s.getKey k = false then 4 else 2) ∧ OnlyPc s t)

/-- EX9E and EXA1 with V[X] ≥ 16 enter KEY_OUT_OF_RANGE with the value (42_skips.md R87, R88, the spec's decision D10). -/
def Obligations.KeyBeyondKeyboardFaults : Prop :=
  ∀ x s, 16 ≤ (s.getV x).toNat →
    (∃ t, exec (.skp x) s = .next t ∧
      FaultEntered .keyOutOfRange (some (encode (.skp x))) none (some (s.getV x)) s t) ∧
    (∃ t, exec (.sknp x) s = .next t ∧
      FaultEntered .keyOutOfRange (some (encode (.sknp x))) none (some (s.getV x)) s t)

/-! ## Register ALU -/

/-- 6XNN and 7XNN (43_register_alu.md R91, R92). -/
def Obligations.LoadAndAddImmediate : Prop :=
  DecodesAs 0xF000 0x6000 (fun w => .ldImm (fieldX w) (fieldNN w)) ∧
  DecodesAs 0xF000 0x7000 (fun w => .addImm (fieldX w) (fieldNN w)) ∧
  ∀ x nn s,
    (∃ t, exec (.ldImm x nn) s = .next t ∧ t.getV x = nn ∧ t.pc = s.pc + 2 ∧ OnlyRegsPc [x] s t) ∧
    (∃ t, exec (.addImm x nn) s = .next t ∧ (t.getV x).toNat = ((s.getV x).toNat + nn.toNat) % 256 ∧
      t.pc = s.pc + 2 ∧ OnlyRegsPc [x] s t)

/-- 8XY0 to 8XY3 (43_register_alu.md R93 to R96): VF is not reset (the spec's derivation from 10_state.md R16). -/
def Obligations.MoveAndBitwise : Prop :=
  ∀ x y s,
    (∃ t, exec (.ldReg x y) s = .next t ∧ t.getV x = s.getV y ∧ t.pc = s.pc + 2 ∧ OnlyRegsPc [x] s t) ∧
    (∃ t, exec (.orReg x y) s = .next t ∧ (∀ k, (t.getV x).getLsbD k = ((s.getV x).getLsbD k || (s.getV y).getLsbD k)) ∧
      t.pc = s.pc + 2 ∧ OnlyRegsPc [x] s t) ∧
    (∃ t, exec (.andReg x y) s = .next t ∧ (∀ k, (t.getV x).getLsbD k = ((s.getV x).getLsbD k && (s.getV y).getLsbD k)) ∧
      t.pc = s.pc + 2 ∧ OnlyRegsPc [x] s t) ∧
    (∃ t, exec (.xorReg x y) s = .next t ∧ (∀ k, (t.getV x).getLsbD k = ((s.getV x).getLsbD k ^^ (s.getV y).getLsbD k)) ∧
      t.pc = s.pc + 2 ∧ OnlyRegsPc [x] s t)

/-- 8XY4 (43_register_alu.md R97): operands first, the flag last; with X = F the sum is lost. -/
def Obligations.AddWritesCarryLast : Prop :=
  DecodesAs 0xF00F 0x8004 (fun w => .addReg (fieldX w) (fieldY w)) ∧
  ∀ x y s, ∃ t, exec (.addReg x y) s = .next t ∧
    (x ≠ 0xF → (t.getV x).toNat = ((s.getV x).toNat + (s.getV y).toNat) % 256) ∧
    t.getV 0xF = (if 256 ≤ (s.getV x).toNat + (s.getV y).toNat then 1 else 0) ∧
    t.pc = s.pc + 2 ∧ OnlyRegsPc [x, 0xF] s t

/-- 8XY5 and 8XY7 (43_register_alu.md R98, R100): the flag is 1 exactly where there is no borrow, last. -/
def Obligations.SubtractWritesNoBorrowLast : Prop :=
  DecodesAs 0xF00F 0x8005 (fun w => .subReg (fieldX w) (fieldY w)) ∧
  DecodesAs 0xF00F 0x8007 (fun w => .subnReg (fieldX w) (fieldY w)) ∧
  ∀ x y s,
    (∃ t, exec (.subReg x y) s = .next t ∧
      (x ≠ 0xF → ((t.getV x).toNat : Int) = (((s.getV x).toNat : Int) - (s.getV y).toNat) % 256) ∧
      t.getV 0xF = (if (s.getV y).toNat ≤ (s.getV x).toNat then 1 else 0) ∧
      t.pc = s.pc + 2 ∧ OnlyRegsPc [x, 0xF] s t) ∧
    (∃ t, exec (.subnReg x y) s = .next t ∧
      (x ≠ 0xF → ((t.getV x).toNat : Int) = (((s.getV y).toNat : Int) - (s.getV x).toNat) % 256) ∧
      t.getV 0xF = (if (s.getV x).toNat ≤ (s.getV y).toNat then 1 else 0) ∧
      t.pc = s.pc + 2 ∧ OnlyRegsPc [x, 0xF] s t)

/-- 8XY6 and 8XYE (43_register_alu.md R99, R101): the bit shifted out goes to VF, last. The Y field is encoded (the decoder
keeps it) and not used (30_encoding.md R62, the spec's derivation in R99 and R101): every y has one effect. -/
def Obligations.ShiftsWriteShiftedOutBitLast : Prop :=
  DecodesAs 0xF00F 0x8006 (fun w => .shrReg (fieldX w) (fieldY w)) ∧
  DecodesAs 0xF00F 0x800E (fun w => .shlReg (fieldX w) (fieldY w)) ∧
  (∀ x y y' s, exec (.shrReg x y) s = exec (.shrReg x y') s ∧ exec (.shlReg x y) s = exec (.shlReg x y') s) ∧
  ∀ x y s,
    (∃ t, exec (.shrReg x y) s = .next t ∧ (x ≠ 0xF → (t.getV x).toNat = (s.getV x).toNat / 2) ∧
      (t.getV 0xF).toNat = (s.getV x).toNat % 2 ∧ t.pc = s.pc + 2 ∧ OnlyRegsPc [x, 0xF] s t) ∧
    (∃ t, exec (.shlReg x y) s = .next t ∧ (x ≠ 0xF → (t.getV x).toNat = (s.getV x).toNat * 2 % 256) ∧
      (t.getV 0xF).toNat = (s.getV x).toNat / 128 ∧ t.pc = s.pc + 2 ∧ OnlyRegsPc [x, 0xF] s t)

/-- CXNN (43_register_alu.md R102): the free byte of this execution, masked. The byte is `Config.freeRandom`, which has no
value anyone can prove; the counter `draws` is the model's own (log 2). -/
def Obligations.RandomByteIsMasked : Prop :=
  ∀ x nn s, ∃ t, exec (.rnd x nn) s = .next t ∧ t.getV x = Config.freeRandom s.draws &&& nn ∧
    (nn = 0 → t.getV x = 0) ∧ t.draws = s.draws + 1 ∧ t.pc = s.pc + 2 ∧
    t = { s with v := t.v, pc := t.pc, draws := t.draws } ∧ SameRegsBut [x] s t ∧ SameMemory s t

/-- Only the six flag-writing instructions write a flag (10_state.md R16; that no other does is the spec's derivation, and
for FX1E its decision D8, log 6): every other instruction leaves VF alone unless VF is its destination, and the six
leave 0 or 1 in it. -/
def Obligations.OnlySixInstrsWriteFlag : Prop :=
  ∀ i s t, exec i s = .next t →
    (writesFlag i = false → loadsVf i = false → t.getV 0xF = s.getV 0xF) ∧
    (writesFlag i = true → t.status ≠ .faulted → t.getV 0xF = 0 ∨ t.getV 0xF = 1)

/-! ## Index register and memory -/

/-- ANNN (44_index_memory.md R104). -/
def Obligations.LoadIndex : Prop :=
  DecodesAs 0xF000 0xA000 (fun w => .ldI (fieldNNN w)) ∧
  ∀ nnn s, ∃ t, exec (.ldI nnn) s = .next t ∧ t.i.toNat = nnn.toNat ∧ t.pc = s.pc + 2 ∧ OnlyIndexPc s t

/-- FX1E (44_index_memory.md R105): I wraps at 16 bits and VF is unchanged, the spec's decision D8 (log 6); with
FX1E_SETS_VF true VF takes, last, whether the unwrapped sum exceeds 0x0FFF. -/
def Obligations.AddToIndexWrapsAndKeepsVf : Prop :=
  ∀ x s,
    (∃ t, exec (.addI x) s = .next t ∧ t.i.toNat = (s.i.toNat + (s.getV x).toNat) % 65536 ∧ t.pc = s.pc + 2 ∧
      OnlyIndexPc s t) ∧
    (∃ t, addToIndex true x s = t ∧ t.i.toNat = (s.i.toNat + (s.getV x).toNat) % 65536 ∧ t.pc = s.pc + 2 ∧
      t.getV 0xF = (if 0x0FFF < s.i.toNat + (s.getV x).toNat then 1 else 0) ∧ SameRegsBut [0xF] s t ∧
      t = { s with v := t.v, i := t.i, pc := t.pc } ∧ SameMemory s t)

/-- FX29 (44_index_memory.md R106): five times V[X], not reduced to the low nibble (the spec's derivation). -/
def Obligations.FontPointerIsFiveTimes : Prop :=
  ∀ x s, ∃ t, exec (.ldFont x) s = .next t ∧ t.i.toNat = 5 * (s.getV x).toNat ∧ t.pc = s.pc + 2 ∧ OnlyIndexPc s t

/-- FX33 in range (44_index_memory.md R107, R103). -/
def Obligations.BcdStoresThreeDigits : Prop :=
  ∀ x s, s.mem.wf = true → s.i.toNat + 2 < 4096 → ∃ t, exec (.ldBcd x) s = .next t ∧
    (t.readByte s.i.toNat).toNat = (s.getV x).toNat / 100 ∧
    (t.readByte (s.i.toNat + 1)).toNat = (s.getV x).toNat / 10 % 10 ∧
    (t.readByte (s.i.toNat + 2)).toNat = (s.getV x).toNat % 10 ∧
    t.pc = s.pc + 2 ∧ OnlyBytesPc s.i.toNat 3 s t

/-- FX55 in range (44_index_memory.md R108, R103); I is unchanged, the spec's decision D9 (log 7). -/
def Obligations.StoreRegistersAtIndex : Prop :=
  ∀ x s, s.mem.wf = true → s.i.toNat + x.toNat < 4096 → ∃ t, exec (.storeRegs x) s = .next t ∧
    (∀ j : Nibble, j.toNat ≤ x.toNat → t.readByte (s.i.toNat + j.toNat) = s.getV j) ∧
    t.pc = s.pc + 2 ∧ OnlyBytesPc s.i.toNat (x.toNat + 1) s t

/-- FX65 in range (44_index_memory.md R109, R103); I is unchanged, the spec's decision D9 (log 7). -/
def Obligations.LoadRegistersFromIndex : Prop :=
  ∀ x s, s.i.toNat + x.toNat < 4096 → ∃ t, exec (.loadRegs x) s = .next t ∧
    (∀ j : Nibble, j.toNat ≤ x.toNat → t.getV j = s.readByte (s.i.toNat + j.toNat)) ∧
    (∀ j : Nibble, x.toNat < j.toNat → t.getV j = s.getV j) ∧
    t.pc = s.pc + 2 ∧ t = { s with v := t.v, pc := t.pc } ∧ SameMemory s t

/-- With LOADSTORE_ADVANCES_I true FX55 and FX65 differ from the default only in I, which becomes I + X + 1
(44_index_memory.md R108, R109, the spec's decision D9, log 7). -/
def Obligations.AdvancingBlockMovesIndexOnly : Prop :=
  ∀ x s, s.i.toNat + x.toNat < 4096 →
    (∃ t, storeRegisters false x s = .next t ∧ ∃ u, storeRegisters true x s = .next u ∧
      u = { t with i := u.i } ∧ u.i.toNat = s.i.toNat + x.toNat + 1) ∧
    (∃ t, loadRegisters false x s = .next t ∧ ∃ u, loadRegisters true x s = .next u ∧
      u = { t with i := u.i } ∧ u.i.toNat = s.i.toNat + x.toNat + 1)

/-- FX33, FX55, FX65 and DXYN with an address that does not exist enter MEM_OUT_OF_RANGE at the first such address and
change nothing else (44_index_memory.md R103, 45_display.md R114, the spec's decisions D4, D23). -/
def Obligations.BlockBeyondMemoryFaults : Prop :=
  ∀ x y n s,
    (4096 ≤ s.i.toNat + 2 → ∃ t, exec (.ldBcd x) s = .next t ∧
      FaultEntered .memOutOfRange (some (encode (.ldBcd x))) (some (max s.i.toNat 4096)) none s t) ∧
    (4096 ≤ s.i.toNat + x.toNat →
      (∃ t, exec (.storeRegs x) s = .next t ∧
        FaultEntered .memOutOfRange (some (encode (.storeRegs x))) (some (max s.i.toNat 4096)) none s t) ∧
      (∃ t, exec (.loadRegs x) s = .next t ∧
        FaultEntered .memOutOfRange (some (encode (.loadRegs x))) (some (max s.i.toNat 4096)) none s t)) ∧
    (0 < n.toNat → 4096 < s.i.toNat + n.toNat → ∃ t, exec (.drw x y n) s = .next t ∧
      FaultEntered .memOutOfRange (some (encode (.drw x y n))) (some (max s.i.toNat 4096)) none s t)

/-- What FX55 stored, FX65 loads back, whatever the registers hold in between (44_index_memory.md R108, R109). -/
def Obligations.StoreThenLoadRestoresRegisters : Prop :=
  ∀ x s f, s.mem.wf = true → s.i.toNat + x.toNat < 4096 → ∃ t u, exec (.storeRegs x) s = .next t ∧
    exec (.loadRegs x) { t with v := f } = .next u ∧ ∀ j : Nibble, j.toNat ≤ x.toNat → u.getV j = s.getV j

/-- A store by FX33 or FX55 is seen by the very next fetch, at PC + 2, and by a fetch anywhere else, the instruction's own
bytes included, whether it covers both bytes of the word, one or none (20_memory.md R52, the spec's derivation and decision
D18, log 27). -/
def Obligations.StoreIsSeenByNextFetch : Prop :=
  ∀ x s, s.mem.wf = true →
    (s.i.toNat + x.toNat < 4096 → ∃ t, exec (.storeRegs x) s = .next t ∧ t.pc = s.pc + 2 ∧
      SeenByFetch s (x.toNat + 1) (fun j => s.getV (BitVec.ofNat 4 j)) t) ∧
    (s.i.toNat + 2 < 4096 → ∃ t, exec (.ldBcd x) s = .next t ∧ t.pc = s.pc + 2 ∧
      SeenByFetch s 3 (fun j => BitVec.ofNat 8 ((s.getV x).toNat / 10 ^ (2 - j) % 10)) t)

/-- Only FX33 and FX55 change memory (20_memory.md R39, the spec's derivation); of the host's events only reset does
(R51, the spec's decision D1, log 30). -/
def Obligations.OnlyStoresChangeMemory : Prop :=
  (∀ i s t, exec i s = .next t → storesBytes i = false → t.mem = s.mem ∧ SameMemory s t) ∧
  (∀ e s, (∀ image, e ≠ .reset image) → (hostEvent e s).mem = s.mem)

/-- Equal contents are equal data: two canonical memories that read alike are one list. The form is the model's own: addresses
strictly rising below 4096, no listed byte equal to `Memory.background` there (log 29). -/
def Obligations.CanonicalMemoriesAreEqual : Prop :=
  ∀ m m' : Memory, m.wf = true → m'.wf = true → (∀ a, a < 4096 → m.read a = m'.read a) → m = m'

/-! ## Display -/

/-- 00E0 (45_display.md R113): every row is zero, and redraw is set on a clear screen too. -/
def Obligations.ClearZeroesEveryRow : Prop :=
  DecodesAs 0xF0FF 0x00E0 (fun w => .cls (fieldX w)) ∧
  ∀ ign s, ∃ t, exec (.cls ign) s = .next t ∧ (∀ r : Fin 32, t.fb[r] = 0) ∧ t.redraw = true ∧ t.pc = s.pc + 2 ∧
    t = { s with fb := t.fb, redraw := t.redraw, pc := t.pc } ∧ SameMemory s t

/-- Bit 7-k of a sprite byte lands on column (x + k) mod 64, and no other column is lit (45_display.md R110, R112). -/
def Obligations.SpriteBitLandsOnColumn : Prop :=
  ∀ (b x : Byte),
    (∀ k, k < 8 → (spriteRow b x).getMsbD ((x.toNat + k) % 64) = b.getMsbD k) ∧
    (∀ c, c < 64 → (∀ k, k < 8 → (x.toNat + k) % 64 ≠ c) → (spriteRow b x).getMsbD c = false)

/-- The draw, pixel by pixel (45_display.md R110): every pixel is XORed with the sprite's pixel there, and "collided" is
true exactly when a lit pixel meets a lit sprite pixel (R111; that lit means lit before the draw is the spec's
derivation). -/
def Obligations.DrawXorsEveryPixel : Prop :=
  ∀ (x y : Byte) (sprite : List Byte) (fb : Vector Row 32), sprite.length ≤ 15 →
    (∀ (r : Fin 32) (c : Nat), c < 64 → (drawSprite x y sprite fb).1[r].getMsbD c =
      (fb[r].getMsbD c ^^ spritePixel x y sprite.length (fun j => sprite.getD j 0) r c)) ∧
    ((drawSprite x y sprite fb).2 = true ↔ ∃ (r : Fin 32) (c : Nat), c < 64 ∧ fb[r].getMsbD c = true ∧
      spritePixel x y sprite.length (fun j => sprite.getD j 0) r c = true)

/-- DXYN in range, N = 0 at any I (45_display.md R114): pixels, VF last, redraw (10_state.md R31, the spec's decision D20,
log 17), and nothing else. -/
def Obligations.DrawInstrXorsSpriteAtIndex : Prop :=
  ∀ x y n s, n.toNat = 0 ∨ s.i.toNat + n.toNat ≤ 4096 → ∃ t, exec (.drw x y n) s = .next t ∧
    (∀ (r : Fin 32) (c : Nat), c < 64 → t.pixel r c =
      (s.pixel r c ^^ spritePixel (s.getV x) (s.getV y) n.toNat (fun j => s.readByte (s.i.toNat + j)) r c)) ∧
    (t.getV 0xF = 1 ∧ (∃ (r : Fin 32) (c : Nat), c < 64 ∧ s.pixel r c = true ∧ t.pixel r c = false) ∨
      t.getV 0xF = 0 ∧ ∀ (r : Fin 32) (c : Nat), c < 64 → s.pixel r c = true → t.pixel r c = true) ∧
    t.redraw = true ∧ t.pc = s.pc + 2 ∧
    t = { s with v := t.v, fb := t.fb, redraw := t.redraw, pc := t.pc } ∧ SameRegsBut [0xF] s t ∧ SameMemory s t

/-- The toggle law (45_display.md R115): a draw twice restores the framebuffer, and the second collides exactly when some
lit sprite pixel was unlit before the first. R115 says it collides "whenever the sprite has at least one 1 bit"; by R110
and R111 that needs such a pixel, and the last clause gives a draw over a lit pixel where the second does not
collide (log 24). -/
def Obligations.DrawTwiceRestoresFramebuffer : Prop :=
  (∀ (x y : Byte) (sprite : List Byte) (fb : Vector Row 32), sprite.length ≤ 15 →
    (drawSprite x y sprite (drawSprite x y sprite fb).1).1 = fb ∧
    ((drawSprite x y sprite (drawSprite x y sprite fb).1).2 = true ↔
      ∃ (r : Fin 32) (c : Nat), c < 64 ∧ fb[r].getMsbD c = false ∧
        spritePixel x y sprite.length (fun j => sprite.getD j 0) r c = true)) ∧
  (∃ fb : Vector Row 32, (drawSprite 0 0 [0x80] (drawSprite 0 0 [0x80] fb).1).2 = false)

/-- No instruction but 00E0 and DXYN touches the framebuffer (10_state.md R28): none writes it, none of them reads it (with
another framebuffer it does the same to everything else), and of the host's events only reset writes it. -/
def Obligations.OnlyClearAndDrawTouchDisplay : Prop :=
  (∀ i s t, exec i s = .next t → touchesDisplay i = false →
    t.fb = s.fb ∧ ∀ f, exec i { s with fb := f } = .next { t with fb := f }) ∧
  (∀ e s, (∀ image, e ≠ .reset image) → (hostEvent e s).fb = s.fb)

/-! ## Timers and keys -/

/-- FX07, FX15 and FX18 (46_timers_keys.md R116, R118, R119), and sound_on as a function of ST (10_state.md R32). -/
def Obligations.TimerRegistersMove : Prop :=
  DecodesAs 0xF0FF 0xF007 (fun w => .ldVxDt (fieldX w)) ∧ DecodesAs 0xF0FF 0xF015 (fun w => .ldDtVx (fieldX w)) ∧
  DecodesAs 0xF0FF 0xF018 (fun w => .ldStVx (fieldX w)) ∧ (∀ s : State, s.soundOn = true ↔ s.st ≠ 0) ∧
  ∀ x s,
    (∃ t, exec (.ldDtVx x) s = .next t ∧ t.dt = s.getV x ∧ t.pc = s.pc + 2 ∧
      t = { s with dt := t.dt, pc := t.pc } ∧ SameMemory s t) ∧
    (∃ t, exec (.ldStVx x) s = .next t ∧ t.st = s.getV x ∧ (t.soundOn = true ↔ s.getV x ≠ 0) ∧ t.pc = s.pc + 2 ∧
      t = { s with st := t.st, pc := t.pc } ∧ SameMemory s t) ∧
    (∃ t, exec (.ldVxDt x) s = .next t ∧ t.getV x = s.dt ∧ t.pc = s.pc + 2 ∧ OnlyRegsPc [x] s t)

/-- FX0A suspends the engine and changes nothing else (46_timers_keys.md R117, the spec's decision D11, log 14). -/
def Obligations.KeyWaitSuspends : Prop :=
  ∀ x s, ∃ t, exec (.ldVxKey x) s = .next t ∧ t.status = .waitingKey x ∧ t = { s with status := t.status } ∧
    SameMemory s t

/-- A press during the wait ends it: V[X] is the key, PC advances, the key is down (46_timers_keys.md R117, the spec's
decision D11, log 14). -/
def Obligations.PressEndsKeyWait : Prop :=
  ∀ s x k, s.status = .waitingKey x → s.getKey k = false → ∃ t, hostEvent (.keyEvent k true) s = t ∧
    t.status = .running ∧ (t.getV x).toNat = k.toNat ∧ t.pc = s.pc + 2 ∧ t.getKey k = true ∧
    (∀ k', k' ≠ k → t.getKey k' = s.getKey k') ∧
    t = { s with v := t.v, pc := t.pc, key := t.key, status := t.status } ∧ SameRegsBut [x] s t ∧ SameMemory s t

/-- A release, a press of a held key and a tick leave the engine waiting (46_timers_keys.md R117, the spec's decision D11,
log 14). -/
def Obligations.OtherEventsKeepWaiting : Prop :=
  ∀ s x k, s.status = .waitingKey x →
    (∃ t, hostEvent (.keyEvent k false) s = t ∧ t.getKey k = false ∧
      (∀ k', k' ≠ k → t.getKey k' = s.getKey k') ∧ t = { s with key := t.key }) ∧
    (s.getKey k = true → hostEvent (.keyEvent k true) s = s) ∧
    (∃ t, hostEvent .timerTick s = t ∧ t.status = .waitingKey x ∧ t = { s with dt := t.dt, st := t.st })

/-- Outside the wait a key event sets its flag and nothing else, in any other status (46_timers_keys.md R120, 60_exceptions.md
R131). -/
def Obligations.KeyEventSetsItsFlag : Prop :=
  ∀ s k p, (∀ x, s.status ≠ .waitingKey x) → ∃ t, hostEvent (.keyEvent k p) s = t ∧ t.getKey k = p ∧
    (∀ k', k' ≠ k → t.getKey k' = s.getKey k') ∧ t = { s with key := t.key }

/-- A tick takes one from each nonzero timer and nothing else, while the run goes on (46_timers_keys.md R121). -/
def Obligations.TickCountsBothTimersDown : Prop :=
  ∀ s, s.status ≠ .faulted → s.status ≠ .stopped → ∃ t, hostEvent .timerTick s = t ∧
    t.dt.toNat = s.dt.toNat - 1 ∧ t.st.toNat = s.st.toNat - 1 ∧ t = { s with dt := t.dt, st := t.st }

/-! ## Host events, faults, reset -/

/-- A stop request while the run goes on makes the status Stopped and nothing else (60_exceptions.md R132, the spec's decision
D12); after the run it and a tick do nothing, which is the model's choice (log 15). -/
def Obligations.StopRequestEndsRun : Prop :=
  ∀ s, (s.status ≠ .faulted → s.status ≠ .stopped → hostEvent .stopRequest s = { s with status := .stopped }) ∧
    (s.status = .faulted ∨ s.status = .stopped → hostEvent .stopRequest s = s ∧ hostEvent .timerTick s = s)

/-- An instruction that faults has no other effect (60_exceptions.md R125, the spec's decision D4), and its record holds its
address, its word and SP (R124, D3). -/
def Obligations.FaultingInstrChangesNothingElse : Prop :=
  ∀ i s t, s.status = .running → exec i s = .next t → t.status = .faulted →
    t = { s with status := .faulted, redraw := false, faultRecord := t.faultRecord } ∧
    ∃ r, t.faultRecord = some r ∧ r.pc = s.pc ∧ r.word = some (encode i) ∧ r.sp = s.sp

/-- A Faulted engine stays Faulted with its record, and a Stopped one stays Stopped, until a reset takes place
(60_exceptions.md R125, R132, 10_state.md R29, R30, the spec's decisions D3, D4, D12): every other step leaves everything but
key flags and the model's own schedule (logs 1, 15). -/
def Obligations.FaultIsFinalUntilReset : Prop :=
  ∀ s t, s.status = .faulted ∨ s.status = .stopped → step s = .next t →
    (∀ image rest, s.schedule = .host (.reset image) :: rest → 3584 < image.length) →
    t.status = s.status ∧ t.faultRecord = s.faultRecord ∧
    t = { s with key := t.key, schedule := t.schedule }

/-- PC moves by 2, by 4 only in the skip class, or not at all where the instruction faults or suspends; only the control
class sets it (40_engine_cycle.md R72, R73). That PC stays on a fault and on the wait are the spec's decisions D4 (R74, log 10)
and D11 (46_timers_keys.md R117, log 14). -/
def Obligations.PcMovesByTwoOrFour : Prop :=
  ∀ i s t, exec i s = .next t → isControl i = false → s.status = .running →
    (t.status = .running → t.pc = s.pc + 2 ∨ isSkip i = true ∧ t.pc = s.pc + 4) ∧
    (t.status ≠ .running → t.pc = s.pc)

/-- Reset with an image of at most 3584 bytes (70_reset_and_hazards.md R140, R141): the image from 0x200, the machine's
FONT, whatever its 80 bytes (10_state.md R33, the spec's decision D16), below 0x50, 0 elsewhere, and every other piece of
state at its reset value; FONT stays (log 31) and the model's own fields go on (log 18). A longer image is refused and the block stays as it was (the spec's decision D21). -/
def Obligations.ResetPlacesImage : Prop :=
  (∀ image s, 3584 < image.length → hostEvent (.reset image) s = s) ∧
  ∀ image s, image.length ≤ 3584 → ∃ t, hostEvent (.reset image) s = t ∧
    (∀ j, ∀ h : j < image.length, t.readByte (0x200 + j) = image[j]) ∧
    (∀ a, ∀ h : a < 80, t.readByte a = s.font[a]) ∧
    (∀ a, 80 ≤ a ∧ a < 0x200 ∨ 0x200 + image.length ≤ a ∧ a < 4096 → t.readByte a = 0) ∧ t.mem.wf = true ∧
    t = { State.reset with mem := t.mem, font := s.font, draws := s.draws, schedule := s.schedule }

/-- The state after reset with no image (10_state.md R34), for every FONT of 80 bytes (R33, the spec's decision D16);
State.reset is that of the default FONT (log 8). Status, record and redraw follow the spec's decisions D3, D12, D20. -/
def Obligations.ResetStateValues : Prop :=
  (∀ f, ∃ r, resetWithFont f = r ∧ (∀ x, r.getV x = 0) ∧ r.i = 0 ∧ r.pc = 0x200 ∧ r.sp.val = 0 ∧
    (∀ j, r.getSlot j = 0) ∧ r.dt = 0 ∧ r.st = 0 ∧ (∀ k, r.getKey k = false) ∧
    (∀ w c, r.pixel w c = false) ∧ (∀ a, ∀ h : a < 80, r.readByte a = f[a]) ∧
    (∀ a, 80 ≤ a → r.readByte a = 0) ∧ r.status = .running ∧ r.faultRecord = none ∧
    r.redraw = false ∧ r.soundOn = false ∧ r.font = f) ∧
  resetWithFont defaultFont = State.reset

/-! ## The invariant -/

/-- Every step, engine or host, keeps the invariant of the block, from every state that has it, and the machine's FONT. Of
the clauses PC's bounds rest on the spec's decisions D6 (10_state.md R21) and D11, the record on D3 and redraw on D20; the
canonical memory and FONT as a field are the model's own form (logs 29, 31). -/
def Obligations.StepKeepsInvariant : Prop := ∀ s t, BlockInv s → step s = .next t → BlockInv t ∧ t.font = s.font

/-- The state after reset has the invariant, whatever FONT is. -/
def Obligations.ResetHasInvariant : Prop := BlockInv State.reset ∧ ∀ f, BlockInv (resetWithFont f)
end

