-- ==== Sys2Proof/Laws/Decode.lean ====
section
/-! SUPPORT. The fields and the masked parts of a word put together from its parts (00_scope.md R5, R8). -/

namespace Sys2Proof

/-! ## A word's fields -/

@[simp] theorem fieldF_wordOfNibbles (f x y n : Nibble) : fieldF (wordOfNibbles f x y n) = f := by
  unfold fieldF wordOfNibbles; ext i hi; interval_cases i <;> simp
@[simp] theorem fieldX_wordOfNibbles (f x y n : Nibble) : fieldX (wordOfNibbles f x y n) = x := by
  unfold fieldX wordOfNibbles; ext i hi; interval_cases i <;> simp
@[simp] theorem fieldY_wordOfNibbles (f x y n : Nibble) : fieldY (wordOfNibbles f x y n) = y := by
  unfold fieldY wordOfNibbles; ext i hi; interval_cases i <;> simp
@[simp] theorem fieldN_wordOfNibbles (f x y n : Nibble) : fieldN (wordOfNibbles f x y n) = n := by
  unfold fieldN wordOfNibbles; ext i hi; interval_cases i <;> simp
@[simp] theorem fieldF_wordOfByte (f x : Nibble) (b : Byte) : fieldF (wordOfByte f x b) = f := by
  unfold fieldF wordOfByte; ext i hi; interval_cases i <;> simp
@[simp] theorem fieldX_wordOfByte (f x : Nibble) (b : Byte) : fieldX (wordOfByte f x b) = x := by
  unfold fieldX wordOfByte; ext i hi; interval_cases i <;> simp
@[simp] theorem fieldNN_wordOfByte (f x : Nibble) (b : Byte) : fieldNN (wordOfByte f x b) = b := by
  unfold fieldNN wordOfByte; ext i hi; interval_cases i <;> simp
@[simp] theorem fieldF_wordOfImm12 (f : Nibble) (a : Imm12) : fieldF (wordOfImm12 f a) = f := by
  unfold fieldF wordOfImm12; ext i hi; interval_cases i <;> simp
@[simp] theorem fieldNNN_wordOfImm12 (f : Nibble) (a : Imm12) : fieldNNN (wordOfImm12 f a) = a := by
  unfold fieldNNN wordOfImm12; ext i hi; interval_cases i <;> simp

/-! ## A word is its fields -/

theorem wordOfNibbles_fields (w : Word) : wordOfNibbles (fieldF w) (fieldX w) (fieldY w) (fieldN w) = w := by
  unfold wordOfNibbles fieldF fieldX fieldY fieldN
  ext i hi; interval_cases i <;> simp
theorem wordOfByte_fields (w : Word) : wordOfByte (fieldF w) (fieldX w) (fieldNN w) = w := by
  unfold wordOfByte fieldF fieldX fieldNN
  ext i hi; interval_cases i <;> simp
theorem wordOfImm12_fields (w : Word) : wordOfImm12 (fieldF w) (fieldNNN w) = w := by
  unfold wordOfImm12 fieldF fieldNNN
  ext i hi; interval_cases i <;> simp

/-- The word of an instruction's two bytes (20_memory.md R42). -/
@[simp] theorem wordOfBytes_highByte_lowByte (w : Word) : wordOfBytes (highByte w) (lowByte w) = w := by
  unfold wordOfBytes highByte lowByte
  ext i hi; interval_cases i <;> simp

/-! ## The masks of 30_encoding.md R56 -/

@[simp] theorem wordOfNibbles_and_F00F (f x y n : Nibble) :
    wordOfNibbles f x y n &&& 0xF00F#16 = wordOfNibbles f 0 0 n := by
  unfold wordOfNibbles; ext i hi; interval_cases i <;> simp
@[simp] theorem wordOfNibbles_and_F000 (f x y n : Nibble) :
    wordOfNibbles f x y n &&& 0xF000#16 = wordOfNibbles f 0 0 0 := by
  unfold wordOfNibbles; ext i hi; interval_cases i <;> simp
@[simp] theorem wordOfByte_and_F0FF (f x : Nibble) (b : Byte) :
    wordOfByte f x b &&& 0xF0FF#16 = wordOfByte f 0 b := by
  unfold wordOfByte; ext i hi; interval_cases i <;> simp
@[simp] theorem wordOfByte_and_00FF (f x : Nibble) (b : Byte) :
    wordOfByte f x b &&& 0x00FF#16 = wordOfByte 0 0 b := by
  unfold wordOfByte; ext i hi; interval_cases i <;> simp
@[simp] theorem wordOfByte_and_F000 (f x : Nibble) (b : Byte) :
    wordOfByte f x b &&& 0xF000#16 = wordOfByte f 0 0 := by
  unfold wordOfByte; ext i hi; interval_cases i <;> simp
@[simp] theorem wordOfImm12_and_F000 (f : Nibble) (a : Imm12) :
    wordOfImm12 f a &&& 0xF000#16 = wordOfImm12 f 0 := by
  unfold wordOfImm12; ext i hi; interval_cases i <;> simp

/-! ## The dispatch map, row by row (30_encoding.md R57) -/

theorem dispatchMap_cls (w : Word) : dispatchMap 0x00E0#16 w = .instr (.cls (fieldX w)) := rfl
theorem dispatchMap_ret (w : Word) : dispatchMap 0x00EE#16 w = .instr (.ret (fieldX w)) := rfl
theorem dispatchMap_jp (w : Word) : dispatchMap 0x1000#16 w = .instr (.jp (fieldNNN w)) := rfl
theorem dispatchMap_call (w : Word) : dispatchMap 0x2000#16 w = .instr (.call (fieldNNN w)) := rfl
theorem dispatchMap_seImm (w : Word) : dispatchMap 0x3000#16 w = .instr (.seImm (fieldX w) (fieldNN w)) := rfl
theorem dispatchMap_sneImm (w : Word) : dispatchMap 0x4000#16 w = .instr (.sneImm (fieldX w) (fieldNN w)) := rfl
theorem dispatchMap_seReg (w : Word) : dispatchMap 0x5000#16 w = .instr (.seReg (fieldX w) (fieldY w) (fieldN w)) := rfl
theorem dispatchMap_ldImm (w : Word) : dispatchMap 0x6000#16 w = .instr (.ldImm (fieldX w) (fieldNN w)) := rfl
theorem dispatchMap_addImm (w : Word) : dispatchMap 0x7000#16 w = .instr (.addImm (fieldX w) (fieldNN w)) := rfl
theorem dispatchMap_ldReg (w : Word) : dispatchMap 0x8000#16 w = .instr (.ldReg (fieldX w) (fieldY w)) := rfl
theorem dispatchMap_orReg (w : Word) : dispatchMap 0x8001#16 w = .instr (.orReg (fieldX w) (fieldY w)) := rfl
theorem dispatchMap_andReg (w : Word) : dispatchMap 0x8002#16 w = .instr (.andReg (fieldX w) (fieldY w)) := rfl
theorem dispatchMap_xorReg (w : Word) : dispatchMap 0x8003#16 w = .instr (.xorReg (fieldX w) (fieldY w)) := rfl
theorem dispatchMap_addReg (w : Word) : dispatchMap 0x8004#16 w = .instr (.addReg (fieldX w) (fieldY w)) := rfl
theorem dispatchMap_subReg (w : Word) : dispatchMap 0x8005#16 w = .instr (.subReg (fieldX w) (fieldY w)) := rfl
theorem dispatchMap_shrReg (w : Word) : dispatchMap 0x8006#16 w = .instr (.shrReg (fieldX w) (fieldY w)) := rfl
theorem dispatchMap_subnReg (w : Word) : dispatchMap 0x8007#16 w = .instr (.subnReg (fieldX w) (fieldY w)) := rfl
theorem dispatchMap_shlReg (w : Word) : dispatchMap 0x800E#16 w = .instr (.shlReg (fieldX w) (fieldY w)) := rfl
theorem dispatchMap_sneReg (w : Word) : dispatchMap 0x9000#16 w = .instr (.sneReg (fieldX w) (fieldY w) (fieldN w)) := rfl
theorem dispatchMap_ldI (w : Word) : dispatchMap 0xA000#16 w = .instr (.ldI (fieldNNN w)) := rfl
theorem dispatchMap_jpV0 (w : Word) : dispatchMap 0xB000#16 w = .instr (.jpV0 (fieldNNN w)) := rfl
theorem dispatchMap_rnd (w : Word) : dispatchMap 0xC000#16 w = .instr (.rnd (fieldX w) (fieldNN w)) := rfl
theorem dispatchMap_drw (w : Word) : dispatchMap 0xD000#16 w = .instr (.drw (fieldX w) (fieldY w) (fieldN w)) := rfl
theorem dispatchMap_skp (w : Word) : dispatchMap 0xE09E#16 w = .instr (.skp (fieldX w)) := rfl
theorem dispatchMap_sknp (w : Word) : dispatchMap 0xE0A1#16 w = .instr (.sknp (fieldX w)) := rfl
theorem dispatchMap_ldVxDt (w : Word) : dispatchMap 0xF007#16 w = .instr (.ldVxDt (fieldX w)) := rfl
theorem dispatchMap_ldVxKey (w : Word) : dispatchMap 0xF00A#16 w = .instr (.ldVxKey (fieldX w)) := rfl
theorem dispatchMap_ldDtVx (w : Word) : dispatchMap 0xF015#16 w = .instr (.ldDtVx (fieldX w)) := rfl
theorem dispatchMap_ldStVx (w : Word) : dispatchMap 0xF018#16 w = .instr (.ldStVx (fieldX w)) := rfl
theorem dispatchMap_addI (w : Word) : dispatchMap 0xF01E#16 w = .instr (.addI (fieldX w)) := rfl
theorem dispatchMap_ldFont (w : Word) : dispatchMap 0xF029#16 w = .instr (.ldFont (fieldX w)) := rfl
theorem dispatchMap_ldBcd (w : Word) : dispatchMap 0xF033#16 w = .instr (.ldBcd (fieldX w)) := rfl
theorem dispatchMap_storeRegs (w : Word) : dispatchMap 0xF055#16 w = .instr (.storeRegs (fieldX w)) := rfl
theorem dispatchMap_loadRegs (w : Word) : dispatchMap 0xF065#16 w = .instr (.loadRegs (fieldX w)) := rfl

end Sys2Proof
end

