-- ==== Sys2Proof/Laws/Memory.lean ====
section
/-! SUPPORT. The laws of memory: read after write, and every operation keeps the canonical form. -/

namespace Sys2Proof.Machine.Memory

/-- A canonical memory is canonical from any lower bound. -/
theorem wfFrom_mono {m : Memory} {lo lo' : Nat} (h : wfFrom lo' m = true) (hle : lo ≤ lo') : wfFrom lo m = true := by
  cases m with
  | nil => rfl
  | cons c rest =>
    simp only [wfFrom, Bool.and_eq_true, decide_eq_true_eq] at h ⊢
    exact ⟨⟨⟨by omega, h.1.1.2⟩, h.1.2⟩, h.2⟩

/-- Below its lower bound a canonical memory lists nothing. -/
theorem read_below {m : Memory} {lo a : Nat} (h : wfFrom lo m = true) (ha : a < lo) : m.read a = background a := by
  induction m generalizing lo with
  | nil => rfl
  | cons c rest ih =>
    simp only [wfFrom, Bool.and_eq_true, decide_eq_true_eq] at h
    have hne : c.1 ≠ a := by omega
    simp only [read, hne, if_false]
    exact ih h.2 (by omega)

/-- A canonical memory lists no address from 4096 on. -/
theorem read_above {m : Memory} {lo a : Nat} (h : wfFrom lo m = true) (ha : Config.memSize ≤ a) :
    m.read a = background a := by
  induction m generalizing lo with
  | nil => rfl
  | cons c rest ih =>
    simp only [wfFrom, Bool.and_eq_true, decide_eq_true_eq] at h
    have hne : c.1 ≠ a := by omega
    simp only [read, hne, if_false]
    exact ih h.2

/-- Reading the written address gives the written byte. -/
theorem read_write_same_from {m : Memory} {lo a : Nat} (b : Byte) (h : wfFrom lo m = true) :
    (m.write a b).read a = b := by
  induction m generalizing lo with
  | nil => unfold write; split <;> simp_all [read]
  | cons c rest ih =>
    obtain ⟨a', b'⟩ := c
    have h0 := h
    simp only [wfFrom, Bool.and_eq_true, decide_eq_true_eq] at h
    unfold write
    split
    next hlt =>
      split
      next hb =>
        have hne : a' ≠ a := by omega
        simp only [read, hne, if_false]
        rw [read_below h.2 (by omega), hb]
      next => simp [read]
    next hnlt =>
      split
      next heq =>
        split
        next hb => rw [read_below h.2 (by omega), hb]
        next => simp [read]
      next hne =>
        have hne' : a' ≠ a := fun e => hne e.symm
        simp only [read, hne', if_false]
        exact ih h.2

/-- Reading the written address gives the written byte, in a canonical memory. -/
theorem read_write_same {m : Memory} {a : Nat} (b : Byte) (h : m.wf = true) : (m.write a b).read a = b :=
  read_write_same_from b h

/-- A write leaves every other address alone. -/
theorem read_write_other {m : Memory} {a c : Nat} (b : Byte) (h : c ≠ a) : (m.write a b).read c = m.read c := by
  have h' : a ≠ c := fun e => h e.symm
  induction m with
  | nil => unfold write; split <;> simp [read, h']
  | cons e rest ih =>
    obtain ⟨a', b'⟩ := e
    unfold write
    split
    · split
      · rfl
      · simp [read, h']
    · split
      next heq =>
        subst heq
        split <;> simp [read, h']
      next => simp only [read, ih]

theorem write_wfFrom {m : Memory} {lo a : Nat} (b : Byte) (h : wfFrom lo m = true) (hlo : lo ≤ a)
    (ha : a < Config.memSize) : wfFrom lo (m.write a b) = true := by
  induction m generalizing lo with
  | nil =>
    unfold write
    split
    · rfl
    next hb => simp [wfFrom, hlo, hb]; omega
  | cons e rest ih =>
    obtain ⟨a', b'⟩ := e
    have h0 := h
    simp only [wfFrom, Bool.and_eq_true, decide_eq_true_eq] at h
    unfold write
    split
    next hlt =>
      split
      · exact h0
      next hb =>
        simp only [wfFrom, Bool.and_eq_true, decide_eq_true_eq]
        exact ⟨⟨⟨hlo, ha⟩, hb⟩, ⟨⟨⟨by omega, h.1.1.2⟩, h.1.2⟩, h.2⟩⟩
    next hnlt =>
      split
      next heq =>
        subst heq
        split
        · exact wfFrom_mono h.2 (by omega)
        next hb =>
          simp only [wfFrom, Bool.and_eq_true, decide_eq_true_eq]
          exact ⟨⟨⟨hlo, ha⟩, hb⟩, h.2⟩
      next hne =>
        simp only [wfFrom, Bool.and_eq_true, decide_eq_true_eq]
        exact ⟨h.1, ih h.2 (by omega)⟩

/-- A write to an address that exists keeps the canonical form. -/
theorem write_wf {m : Memory} {a : Nat} (b : Byte) (h : m.wf = true) (ha : a < Config.memSize) :
    (m.write a b).wf = true := write_wfFrom b h (Nat.zero_le a) ha

/-- Bytes written inside the address space keep the canonical form. -/
theorem writeBytes_wf {m : Memory} {a : Nat} {bs : List Byte} (h : m.wf = true)
    (ha : a + bs.length ≤ Config.memSize) : (m.writeBytes a bs).wf = true := by
  induction bs generalizing m a with
  | nil => exact h
  | cons b rest ih =>
    simp only [List.length_cons] at ha
    exact ih (write_wf b h (by omega)) (by omega)

/-- Writing bytes leaves the addresses outside them alone. -/
theorem read_writeBytes_outside {m : Memory} {a c : Nat} {bs : List Byte} (h : c < a ∨ a + bs.length ≤ c) :
    (m.writeBytes a bs).read c = m.read c := by
  induction bs generalizing m a with
  | nil => rfl
  | cons b rest ih =>
    simp only [List.length_cons] at h
    simp only [writeBytes]
    rw [ih (by omega), read_write_other b (by omega)]

/-- The j-th of the bytes written at a reads back at a + j. -/
theorem read_writeBytes_inside {m : Memory} {a j : Nat} {bs : List Byte} (h : m.wf = true)
    (ha : a + bs.length ≤ Config.memSize) (hj : j < bs.length) : (m.writeBytes a bs).read (a + j) = bs[j] := by
  induction bs generalizing m a j with
  | nil => simp at hj
  | cons b rest ih =>
    simp only [List.length_cons] at ha hj
    have hw := write_wf (a := a) b h (by omega)
    cases j with
    | zero =>
      simp only [writeBytes, Nat.add_zero, List.getElem_cons_zero]
      rw [read_writeBytes_outside (by omega), read_write_same b h]
    | succ j =>
      simp only [writeBytes, List.getElem_cons_succ]
      rw [show a + (j + 1) = a + 1 + j by omega]
      exact ih hw (by omega) (by omega)

/-- What every address reads as after bytes were written from a on. -/
theorem read_writeBytes {m : Memory} {a : Nat} {bs : List Byte} (c : Nat) (h : m.wf = true)
    (ha : a + bs.length ≤ Config.memSize) :
    (m.writeBytes a bs).read c = if a ≤ c ∧ c < a + bs.length then bs.getD (c - a) 0 else m.read c := by
  split
  · rename_i hc
    obtain ⟨j, rfl⟩ := Nat.exists_eq_add_of_le hc.1
    rw [read_writeBytes_inside h ha (by omega)]
    simp [show j < bs.length by omega]
  · exact read_writeBytes_outside (by omega)

@[simp] theorem length_readBytes (m : Memory) (a n : Nat) : (m.readBytes a n).length = n := by
  induction n generalizing a with
  | zero => rfl
  | succ n ih => simp [readBytes, ih]

/-- The j-th of the bytes read at a is the byte at a + j. -/
theorem getElem_readBytes (m : Memory) (a n j : Nat) (h : j < (m.readBytes a n).length) :
    (m.readBytes a n)[j] = m.read (a + j) := by
  induction n generalizing a j with
  | zero => simp [readBytes] at h
  | succ n ih =>
    cases j with
    | zero => simp [readBytes]
    | succ j =>
      simp only [readBytes, List.getElem_cons_succ]
      rw [ih, show a + (j + 1) = a + 1 + j by omega]

end Sys2Proof.Machine.Memory
end

