-- ==== Sys2Proof/Laws/State.lean ====
section
/-! SUPPORT. One lemma per field per update, true by rfl. -/

namespace Sys2Proof.Machine

variable (s : State)


@[simp] theorem setV_v (x : Nibble) (b : Byte) : (s.setV x b).v = s.v.set x.toNat b x.isLt := rfl
@[simp] theorem setV_i (x : Nibble) (b : Byte) : (s.setV x b).i = s.i := rfl
@[simp] theorem setV_pc (x : Nibble) (b : Byte) : (s.setV x b).pc = s.pc := rfl
@[simp] theorem setV_sp (x : Nibble) (b : Byte) : (s.setV x b).sp = s.sp := rfl
@[simp] theorem setV_stack (x : Nibble) (b : Byte) : (s.setV x b).stack = s.stack := rfl
@[simp] theorem setV_dt (x : Nibble) (b : Byte) : (s.setV x b).dt = s.dt := rfl
@[simp] theorem setV_st (x : Nibble) (b : Byte) : (s.setV x b).st = s.st := rfl
@[simp] theorem setV_key (x : Nibble) (b : Byte) : (s.setV x b).key = s.key := rfl
@[simp] theorem setV_fb (x : Nibble) (b : Byte) : (s.setV x b).fb = s.fb := rfl
@[simp] theorem setV_mem (x : Nibble) (b : Byte) : (s.setV x b).mem = s.mem := rfl
@[simp] theorem setV_status (x : Nibble) (b : Byte) : (s.setV x b).status = s.status := rfl
@[simp] theorem setV_faultRecord (x : Nibble) (b : Byte) : (s.setV x b).faultRecord = s.faultRecord := rfl
@[simp] theorem setV_redraw (x : Nibble) (b : Byte) : (s.setV x b).redraw = s.redraw := rfl
@[simp] theorem setV_font (x : Nibble) (b : Byte) : (s.setV x b).font = s.font := rfl
@[simp] theorem setV_draws (x : Nibble) (b : Byte) : (s.setV x b).draws = s.draws := rfl
@[simp] theorem setV_schedule (x : Nibble) (b : Byte) : (s.setV x b).schedule = s.schedule := rfl

@[simp] theorem setI_v (a : Word) : (s.setI a).v = s.v := rfl
@[simp] theorem setI_i (a : Word) : (s.setI a).i = a := rfl
@[simp] theorem setI_pc (a : Word) : (s.setI a).pc = s.pc := rfl
@[simp] theorem setI_sp (a : Word) : (s.setI a).sp = s.sp := rfl
@[simp] theorem setI_stack (a : Word) : (s.setI a).stack = s.stack := rfl
@[simp] theorem setI_dt (a : Word) : (s.setI a).dt = s.dt := rfl
@[simp] theorem setI_st (a : Word) : (s.setI a).st = s.st := rfl
@[simp] theorem setI_key (a : Word) : (s.setI a).key = s.key := rfl
@[simp] theorem setI_fb (a : Word) : (s.setI a).fb = s.fb := rfl
@[simp] theorem setI_mem (a : Word) : (s.setI a).mem = s.mem := rfl
@[simp] theorem setI_status (a : Word) : (s.setI a).status = s.status := rfl
@[simp] theorem setI_faultRecord (a : Word) : (s.setI a).faultRecord = s.faultRecord := rfl
@[simp] theorem setI_redraw (a : Word) : (s.setI a).redraw = s.redraw := rfl
@[simp] theorem setI_font (a : Word) : (s.setI a).font = s.font := rfl
@[simp] theorem setI_draws (a : Word) : (s.setI a).draws = s.draws := rfl
@[simp] theorem setI_schedule (a : Word) : (s.setI a).schedule = s.schedule := rfl

@[simp] theorem setPc_v (a : Word) : (s.setPc a).v = s.v := rfl
@[simp] theorem setPc_i (a : Word) : (s.setPc a).i = s.i := rfl
@[simp] theorem setPc_pc (a : Word) : (s.setPc a).pc = a := rfl
@[simp] theorem setPc_sp (a : Word) : (s.setPc a).sp = s.sp := rfl
@[simp] theorem setPc_stack (a : Word) : (s.setPc a).stack = s.stack := rfl
@[simp] theorem setPc_dt (a : Word) : (s.setPc a).dt = s.dt := rfl
@[simp] theorem setPc_st (a : Word) : (s.setPc a).st = s.st := rfl
@[simp] theorem setPc_key (a : Word) : (s.setPc a).key = s.key := rfl
@[simp] theorem setPc_fb (a : Word) : (s.setPc a).fb = s.fb := rfl
@[simp] theorem setPc_mem (a : Word) : (s.setPc a).mem = s.mem := rfl
@[simp] theorem setPc_status (a : Word) : (s.setPc a).status = s.status := rfl
@[simp] theorem setPc_faultRecord (a : Word) : (s.setPc a).faultRecord = s.faultRecord := rfl
@[simp] theorem setPc_redraw (a : Word) : (s.setPc a).redraw = s.redraw := rfl
@[simp] theorem setPc_font (a : Word) : (s.setPc a).font = s.font := rfl
@[simp] theorem setPc_draws (a : Word) : (s.setPc a).draws = s.draws := rfl
@[simp] theorem setPc_schedule (a : Word) : (s.setPc a).schedule = s.schedule := rfl

@[simp] theorem setSp_v (n : Fin 16) : (s.setSp n).v = s.v := rfl
@[simp] theorem setSp_i (n : Fin 16) : (s.setSp n).i = s.i := rfl
@[simp] theorem setSp_pc (n : Fin 16) : (s.setSp n).pc = s.pc := rfl
@[simp] theorem setSp_sp (n : Fin 16) : (s.setSp n).sp = n := rfl
@[simp] theorem setSp_stack (n : Fin 16) : (s.setSp n).stack = s.stack := rfl
@[simp] theorem setSp_dt (n : Fin 16) : (s.setSp n).dt = s.dt := rfl
@[simp] theorem setSp_st (n : Fin 16) : (s.setSp n).st = s.st := rfl
@[simp] theorem setSp_key (n : Fin 16) : (s.setSp n).key = s.key := rfl
@[simp] theorem setSp_fb (n : Fin 16) : (s.setSp n).fb = s.fb := rfl
@[simp] theorem setSp_mem (n : Fin 16) : (s.setSp n).mem = s.mem := rfl
@[simp] theorem setSp_status (n : Fin 16) : (s.setSp n).status = s.status := rfl
@[simp] theorem setSp_faultRecord (n : Fin 16) : (s.setSp n).faultRecord = s.faultRecord := rfl
@[simp] theorem setSp_redraw (n : Fin 16) : (s.setSp n).redraw = s.redraw := rfl
@[simp] theorem setSp_font (n : Fin 16) : (s.setSp n).font = s.font := rfl
@[simp] theorem setSp_draws (n : Fin 16) : (s.setSp n).draws = s.draws := rfl
@[simp] theorem setSp_schedule (n : Fin 16) : (s.setSp n).schedule = s.schedule := rfl

@[simp] theorem setSlot_v (j : Fin 16) (a : Word) : (s.setSlot j a).v = s.v := rfl
@[simp] theorem setSlot_i (j : Fin 16) (a : Word) : (s.setSlot j a).i = s.i := rfl
@[simp] theorem setSlot_pc (j : Fin 16) (a : Word) : (s.setSlot j a).pc = s.pc := rfl
@[simp] theorem setSlot_sp (j : Fin 16) (a : Word) : (s.setSlot j a).sp = s.sp := rfl
@[simp] theorem setSlot_stack (j : Fin 16) (a : Word) : (s.setSlot j a).stack = s.stack.set j a := rfl
@[simp] theorem setSlot_dt (j : Fin 16) (a : Word) : (s.setSlot j a).dt = s.dt := rfl
@[simp] theorem setSlot_st (j : Fin 16) (a : Word) : (s.setSlot j a).st = s.st := rfl
@[simp] theorem setSlot_key (j : Fin 16) (a : Word) : (s.setSlot j a).key = s.key := rfl
@[simp] theorem setSlot_fb (j : Fin 16) (a : Word) : (s.setSlot j a).fb = s.fb := rfl
@[simp] theorem setSlot_mem (j : Fin 16) (a : Word) : (s.setSlot j a).mem = s.mem := rfl
@[simp] theorem setSlot_status (j : Fin 16) (a : Word) : (s.setSlot j a).status = s.status := rfl
@[simp] theorem setSlot_faultRecord (j : Fin 16) (a : Word) : (s.setSlot j a).faultRecord = s.faultRecord := rfl
@[simp] theorem setSlot_redraw (j : Fin 16) (a : Word) : (s.setSlot j a).redraw = s.redraw := rfl
@[simp] theorem setSlot_font (j : Fin 16) (a : Word) : (s.setSlot j a).font = s.font := rfl
@[simp] theorem setSlot_draws (j : Fin 16) (a : Word) : (s.setSlot j a).draws = s.draws := rfl
@[simp] theorem setSlot_schedule (j : Fin 16) (a : Word) : (s.setSlot j a).schedule = s.schedule := rfl

@[simp] theorem setDt_v (b : Byte) : (s.setDt b).v = s.v := rfl
@[simp] theorem setDt_i (b : Byte) : (s.setDt b).i = s.i := rfl
@[simp] theorem setDt_pc (b : Byte) : (s.setDt b).pc = s.pc := rfl
@[simp] theorem setDt_sp (b : Byte) : (s.setDt b).sp = s.sp := rfl
@[simp] theorem setDt_stack (b : Byte) : (s.setDt b).stack = s.stack := rfl
@[simp] theorem setDt_dt (b : Byte) : (s.setDt b).dt = b := rfl
@[simp] theorem setDt_st (b : Byte) : (s.setDt b).st = s.st := rfl
@[simp] theorem setDt_key (b : Byte) : (s.setDt b).key = s.key := rfl
@[simp] theorem setDt_fb (b : Byte) : (s.setDt b).fb = s.fb := rfl
@[simp] theorem setDt_mem (b : Byte) : (s.setDt b).mem = s.mem := rfl
@[simp] theorem setDt_status (b : Byte) : (s.setDt b).status = s.status := rfl
@[simp] theorem setDt_faultRecord (b : Byte) : (s.setDt b).faultRecord = s.faultRecord := rfl
@[simp] theorem setDt_redraw (b : Byte) : (s.setDt b).redraw = s.redraw := rfl
@[simp] theorem setDt_font (b : Byte) : (s.setDt b).font = s.font := rfl
@[simp] theorem setDt_draws (b : Byte) : (s.setDt b).draws = s.draws := rfl
@[simp] theorem setDt_schedule (b : Byte) : (s.setDt b).schedule = s.schedule := rfl

@[simp] theorem setSt_v (b : Byte) : (s.setSt b).v = s.v := rfl
@[simp] theorem setSt_i (b : Byte) : (s.setSt b).i = s.i := rfl
@[simp] theorem setSt_pc (b : Byte) : (s.setSt b).pc = s.pc := rfl
@[simp] theorem setSt_sp (b : Byte) : (s.setSt b).sp = s.sp := rfl
@[simp] theorem setSt_stack (b : Byte) : (s.setSt b).stack = s.stack := rfl
@[simp] theorem setSt_dt (b : Byte) : (s.setSt b).dt = s.dt := rfl
@[simp] theorem setSt_st (b : Byte) : (s.setSt b).st = b := rfl
@[simp] theorem setSt_key (b : Byte) : (s.setSt b).key = s.key := rfl
@[simp] theorem setSt_fb (b : Byte) : (s.setSt b).fb = s.fb := rfl
@[simp] theorem setSt_mem (b : Byte) : (s.setSt b).mem = s.mem := rfl
@[simp] theorem setSt_status (b : Byte) : (s.setSt b).status = s.status := rfl
@[simp] theorem setSt_faultRecord (b : Byte) : (s.setSt b).faultRecord = s.faultRecord := rfl
@[simp] theorem setSt_redraw (b : Byte) : (s.setSt b).redraw = s.redraw := rfl
@[simp] theorem setSt_font (b : Byte) : (s.setSt b).font = s.font := rfl
@[simp] theorem setSt_draws (b : Byte) : (s.setSt b).draws = s.draws := rfl
@[simp] theorem setSt_schedule (b : Byte) : (s.setSt b).schedule = s.schedule := rfl

@[simp] theorem setKey_v (k : Nibble) (p : Bool) : (s.setKey k p).v = s.v := rfl
@[simp] theorem setKey_i (k : Nibble) (p : Bool) : (s.setKey k p).i = s.i := rfl
@[simp] theorem setKey_pc (k : Nibble) (p : Bool) : (s.setKey k p).pc = s.pc := rfl
@[simp] theorem setKey_sp (k : Nibble) (p : Bool) : (s.setKey k p).sp = s.sp := rfl
@[simp] theorem setKey_stack (k : Nibble) (p : Bool) : (s.setKey k p).stack = s.stack := rfl
@[simp] theorem setKey_dt (k : Nibble) (p : Bool) : (s.setKey k p).dt = s.dt := rfl
@[simp] theorem setKey_st (k : Nibble) (p : Bool) : (s.setKey k p).st = s.st := rfl
@[simp] theorem setKey_key (k : Nibble) (p : Bool) : (s.setKey k p).key = s.key.set k.toNat p k.isLt := rfl
@[simp] theorem setKey_fb (k : Nibble) (p : Bool) : (s.setKey k p).fb = s.fb := rfl
@[simp] theorem setKey_mem (k : Nibble) (p : Bool) : (s.setKey k p).mem = s.mem := rfl
@[simp] theorem setKey_status (k : Nibble) (p : Bool) : (s.setKey k p).status = s.status := rfl
@[simp] theorem setKey_faultRecord (k : Nibble) (p : Bool) : (s.setKey k p).faultRecord = s.faultRecord := rfl
@[simp] theorem setKey_redraw (k : Nibble) (p : Bool) : (s.setKey k p).redraw = s.redraw := rfl
@[simp] theorem setKey_font (k : Nibble) (p : Bool) : (s.setKey k p).font = s.font := rfl
@[simp] theorem setKey_draws (k : Nibble) (p : Bool) : (s.setKey k p).draws = s.draws := rfl
@[simp] theorem setKey_schedule (k : Nibble) (p : Bool) : (s.setKey k p).schedule = s.schedule := rfl

@[simp] theorem setFb_v (f : Vector Row 32) : (s.setFb f).v = s.v := rfl
@[simp] theorem setFb_i (f : Vector Row 32) : (s.setFb f).i = s.i := rfl
@[simp] theorem setFb_pc (f : Vector Row 32) : (s.setFb f).pc = s.pc := rfl
@[simp] theorem setFb_sp (f : Vector Row 32) : (s.setFb f).sp = s.sp := rfl
@[simp] theorem setFb_stack (f : Vector Row 32) : (s.setFb f).stack = s.stack := rfl
@[simp] theorem setFb_dt (f : Vector Row 32) : (s.setFb f).dt = s.dt := rfl
@[simp] theorem setFb_st (f : Vector Row 32) : (s.setFb f).st = s.st := rfl
@[simp] theorem setFb_key (f : Vector Row 32) : (s.setFb f).key = s.key := rfl
@[simp] theorem setFb_fb (f : Vector Row 32) : (s.setFb f).fb = f := rfl
@[simp] theorem setFb_mem (f : Vector Row 32) : (s.setFb f).mem = s.mem := rfl
@[simp] theorem setFb_status (f : Vector Row 32) : (s.setFb f).status = s.status := rfl
@[simp] theorem setFb_faultRecord (f : Vector Row 32) : (s.setFb f).faultRecord = s.faultRecord := rfl
@[simp] theorem setFb_redraw (f : Vector Row 32) : (s.setFb f).redraw = s.redraw := rfl
@[simp] theorem setFb_font (f : Vector Row 32) : (s.setFb f).font = s.font := rfl
@[simp] theorem setFb_draws (f : Vector Row 32) : (s.setFb f).draws = s.draws := rfl
@[simp] theorem setFb_schedule (f : Vector Row 32) : (s.setFb f).schedule = s.schedule := rfl

@[simp] theorem setMem_v (m : Memory) : (s.setMem m).v = s.v := rfl
@[simp] theorem setMem_i (m : Memory) : (s.setMem m).i = s.i := rfl
@[simp] theorem setMem_pc (m : Memory) : (s.setMem m).pc = s.pc := rfl
@[simp] theorem setMem_sp (m : Memory) : (s.setMem m).sp = s.sp := rfl
@[simp] theorem setMem_stack (m : Memory) : (s.setMem m).stack = s.stack := rfl
@[simp] theorem setMem_dt (m : Memory) : (s.setMem m).dt = s.dt := rfl
@[simp] theorem setMem_st (m : Memory) : (s.setMem m).st = s.st := rfl
@[simp] theorem setMem_key (m : Memory) : (s.setMem m).key = s.key := rfl
@[simp] theorem setMem_fb (m : Memory) : (s.setMem m).fb = s.fb := rfl
@[simp] theorem setMem_mem (m : Memory) : (s.setMem m).mem = m := rfl
@[simp] theorem setMem_status (m : Memory) : (s.setMem m).status = s.status := rfl
@[simp] theorem setMem_faultRecord (m : Memory) : (s.setMem m).faultRecord = s.faultRecord := rfl
@[simp] theorem setMem_redraw (m : Memory) : (s.setMem m).redraw = s.redraw := rfl
@[simp] theorem setMem_font (m : Memory) : (s.setMem m).font = s.font := rfl
@[simp] theorem setMem_draws (m : Memory) : (s.setMem m).draws = s.draws := rfl
@[simp] theorem setMem_schedule (m : Memory) : (s.setMem m).schedule = s.schedule := rfl

@[simp] theorem setStatus_v (q : Status) : (s.setStatus q).v = s.v := rfl
@[simp] theorem setStatus_i (q : Status) : (s.setStatus q).i = s.i := rfl
@[simp] theorem setStatus_pc (q : Status) : (s.setStatus q).pc = s.pc := rfl
@[simp] theorem setStatus_sp (q : Status) : (s.setStatus q).sp = s.sp := rfl
@[simp] theorem setStatus_stack (q : Status) : (s.setStatus q).stack = s.stack := rfl
@[simp] theorem setStatus_dt (q : Status) : (s.setStatus q).dt = s.dt := rfl
@[simp] theorem setStatus_st (q : Status) : (s.setStatus q).st = s.st := rfl
@[simp] theorem setStatus_key (q : Status) : (s.setStatus q).key = s.key := rfl
@[simp] theorem setStatus_fb (q : Status) : (s.setStatus q).fb = s.fb := rfl
@[simp] theorem setStatus_mem (q : Status) : (s.setStatus q).mem = s.mem := rfl
@[simp] theorem setStatus_status (q : Status) : (s.setStatus q).status = q := rfl
@[simp] theorem setStatus_faultRecord (q : Status) : (s.setStatus q).faultRecord = s.faultRecord := rfl
@[simp] theorem setStatus_redraw (q : Status) : (s.setStatus q).redraw = s.redraw := rfl
@[simp] theorem setStatus_font (q : Status) : (s.setStatus q).font = s.font := rfl
@[simp] theorem setStatus_draws (q : Status) : (s.setStatus q).draws = s.draws := rfl
@[simp] theorem setStatus_schedule (q : Status) : (s.setStatus q).schedule = s.schedule := rfl

@[simp] theorem setRedraw_v (b : Bool) : (s.setRedraw b).v = s.v := rfl
@[simp] theorem setRedraw_i (b : Bool) : (s.setRedraw b).i = s.i := rfl
@[simp] theorem setRedraw_pc (b : Bool) : (s.setRedraw b).pc = s.pc := rfl
@[simp] theorem setRedraw_sp (b : Bool) : (s.setRedraw b).sp = s.sp := rfl
@[simp] theorem setRedraw_stack (b : Bool) : (s.setRedraw b).stack = s.stack := rfl
@[simp] theorem setRedraw_dt (b : Bool) : (s.setRedraw b).dt = s.dt := rfl
@[simp] theorem setRedraw_st (b : Bool) : (s.setRedraw b).st = s.st := rfl
@[simp] theorem setRedraw_key (b : Bool) : (s.setRedraw b).key = s.key := rfl
@[simp] theorem setRedraw_fb (b : Bool) : (s.setRedraw b).fb = s.fb := rfl
@[simp] theorem setRedraw_mem (b : Bool) : (s.setRedraw b).mem = s.mem := rfl
@[simp] theorem setRedraw_status (b : Bool) : (s.setRedraw b).status = s.status := rfl
@[simp] theorem setRedraw_faultRecord (b : Bool) : (s.setRedraw b).faultRecord = s.faultRecord := rfl
@[simp] theorem setRedraw_redraw (b : Bool) : (s.setRedraw b).redraw = b := rfl
@[simp] theorem setRedraw_font (b : Bool) : (s.setRedraw b).font = s.font := rfl
@[simp] theorem setRedraw_draws (b : Bool) : (s.setRedraw b).draws = s.draws := rfl
@[simp] theorem setRedraw_schedule (b : Bool) : (s.setRedraw b).schedule = s.schedule := rfl

@[simp] theorem setFont_v (f : Vector Byte 80) : (s.setFont f).v = s.v := rfl
@[simp] theorem setFont_i (f : Vector Byte 80) : (s.setFont f).i = s.i := rfl
@[simp] theorem setFont_pc (f : Vector Byte 80) : (s.setFont f).pc = s.pc := rfl
@[simp] theorem setFont_sp (f : Vector Byte 80) : (s.setFont f).sp = s.sp := rfl
@[simp] theorem setFont_stack (f : Vector Byte 80) : (s.setFont f).stack = s.stack := rfl
@[simp] theorem setFont_dt (f : Vector Byte 80) : (s.setFont f).dt = s.dt := rfl
@[simp] theorem setFont_st (f : Vector Byte 80) : (s.setFont f).st = s.st := rfl
@[simp] theorem setFont_key (f : Vector Byte 80) : (s.setFont f).key = s.key := rfl
@[simp] theorem setFont_fb (f : Vector Byte 80) : (s.setFont f).fb = s.fb := rfl
@[simp] theorem setFont_mem (f : Vector Byte 80) : (s.setFont f).mem = s.mem := rfl
@[simp] theorem setFont_status (f : Vector Byte 80) : (s.setFont f).status = s.status := rfl
@[simp] theorem setFont_faultRecord (f : Vector Byte 80) : (s.setFont f).faultRecord = s.faultRecord := rfl
@[simp] theorem setFont_redraw (f : Vector Byte 80) : (s.setFont f).redraw = s.redraw := rfl
@[simp] theorem setFont_font (f : Vector Byte 80) : (s.setFont f).font = f := rfl
@[simp] theorem setFont_draws (f : Vector Byte 80) : (s.setFont f).draws = s.draws := rfl
@[simp] theorem setFont_schedule (f : Vector Byte 80) : (s.setFont f).schedule = s.schedule := rfl

@[simp] theorem setDraws_v (n : Nat) : (s.setDraws n).v = s.v := rfl
@[simp] theorem setDraws_i (n : Nat) : (s.setDraws n).i = s.i := rfl
@[simp] theorem setDraws_pc (n : Nat) : (s.setDraws n).pc = s.pc := rfl
@[simp] theorem setDraws_sp (n : Nat) : (s.setDraws n).sp = s.sp := rfl
@[simp] theorem setDraws_stack (n : Nat) : (s.setDraws n).stack = s.stack := rfl
@[simp] theorem setDraws_dt (n : Nat) : (s.setDraws n).dt = s.dt := rfl
@[simp] theorem setDraws_st (n : Nat) : (s.setDraws n).st = s.st := rfl
@[simp] theorem setDraws_key (n : Nat) : (s.setDraws n).key = s.key := rfl
@[simp] theorem setDraws_fb (n : Nat) : (s.setDraws n).fb = s.fb := rfl
@[simp] theorem setDraws_mem (n : Nat) : (s.setDraws n).mem = s.mem := rfl
@[simp] theorem setDraws_status (n : Nat) : (s.setDraws n).status = s.status := rfl
@[simp] theorem setDraws_faultRecord (n : Nat) : (s.setDraws n).faultRecord = s.faultRecord := rfl
@[simp] theorem setDraws_redraw (n : Nat) : (s.setDraws n).redraw = s.redraw := rfl
@[simp] theorem setDraws_font (n : Nat) : (s.setDraws n).font = s.font := rfl
@[simp] theorem setDraws_draws (n : Nat) : (s.setDraws n).draws = n := rfl
@[simp] theorem setDraws_schedule (n : Nat) : (s.setDraws n).schedule = s.schedule := rfl

@[simp] theorem setSchedule_v (l : List Turn) : (s.setSchedule l).v = s.v := rfl
@[simp] theorem setSchedule_i (l : List Turn) : (s.setSchedule l).i = s.i := rfl
@[simp] theorem setSchedule_pc (l : List Turn) : (s.setSchedule l).pc = s.pc := rfl
@[simp] theorem setSchedule_sp (l : List Turn) : (s.setSchedule l).sp = s.sp := rfl
@[simp] theorem setSchedule_stack (l : List Turn) : (s.setSchedule l).stack = s.stack := rfl
@[simp] theorem setSchedule_dt (l : List Turn) : (s.setSchedule l).dt = s.dt := rfl
@[simp] theorem setSchedule_st (l : List Turn) : (s.setSchedule l).st = s.st := rfl
@[simp] theorem setSchedule_key (l : List Turn) : (s.setSchedule l).key = s.key := rfl
@[simp] theorem setSchedule_fb (l : List Turn) : (s.setSchedule l).fb = s.fb := rfl
@[simp] theorem setSchedule_mem (l : List Turn) : (s.setSchedule l).mem = s.mem := rfl
@[simp] theorem setSchedule_status (l : List Turn) : (s.setSchedule l).status = s.status := rfl
@[simp] theorem setSchedule_faultRecord (l : List Turn) : (s.setSchedule l).faultRecord = s.faultRecord := rfl
@[simp] theorem setSchedule_redraw (l : List Turn) : (s.setSchedule l).redraw = s.redraw := rfl
@[simp] theorem setSchedule_font (l : List Turn) : (s.setSchedule l).font = s.font := rfl
@[simp] theorem setSchedule_draws (l : List Turn) : (s.setSchedule l).draws = s.draws := rfl
@[simp] theorem setSchedule_schedule (l : List Turn) : (s.setSchedule l).schedule = l := rfl

@[simp] theorem advance_v : (s.advance).v = s.v := rfl
@[simp] theorem advance_i : (s.advance).i = s.i := rfl
@[simp] theorem advance_pc : (s.advance).pc = s.pc + 2 := rfl
@[simp] theorem advance_sp : (s.advance).sp = s.sp := rfl
@[simp] theorem advance_stack : (s.advance).stack = s.stack := rfl
@[simp] theorem advance_dt : (s.advance).dt = s.dt := rfl
@[simp] theorem advance_st : (s.advance).st = s.st := rfl
@[simp] theorem advance_key : (s.advance).key = s.key := rfl
@[simp] theorem advance_fb : (s.advance).fb = s.fb := rfl
@[simp] theorem advance_mem : (s.advance).mem = s.mem := rfl
@[simp] theorem advance_status : (s.advance).status = s.status := rfl
@[simp] theorem advance_faultRecord : (s.advance).faultRecord = s.faultRecord := rfl
@[simp] theorem advance_redraw : (s.advance).redraw = s.redraw := rfl
@[simp] theorem advance_font : (s.advance).font = s.font := rfl
@[simp] theorem advance_draws : (s.advance).draws = s.draws := rfl
@[simp] theorem advance_schedule : (s.advance).schedule = s.schedule := rfl

@[simp] theorem skipIf_v (c : Bool) : (s.skipIf c).v = s.v := rfl
@[simp] theorem skipIf_i (c : Bool) : (s.skipIf c).i = s.i := rfl
@[simp] theorem skipIf_pc (c : Bool) : (s.skipIf c).pc = s.pc + if c then 4 else 2 := rfl
@[simp] theorem skipIf_sp (c : Bool) : (s.skipIf c).sp = s.sp := rfl
@[simp] theorem skipIf_stack (c : Bool) : (s.skipIf c).stack = s.stack := rfl
@[simp] theorem skipIf_dt (c : Bool) : (s.skipIf c).dt = s.dt := rfl
@[simp] theorem skipIf_st (c : Bool) : (s.skipIf c).st = s.st := rfl
@[simp] theorem skipIf_key (c : Bool) : (s.skipIf c).key = s.key := rfl
@[simp] theorem skipIf_fb (c : Bool) : (s.skipIf c).fb = s.fb := rfl
@[simp] theorem skipIf_mem (c : Bool) : (s.skipIf c).mem = s.mem := rfl
@[simp] theorem skipIf_status (c : Bool) : (s.skipIf c).status = s.status := rfl
@[simp] theorem skipIf_faultRecord (c : Bool) : (s.skipIf c).faultRecord = s.faultRecord := rfl
@[simp] theorem skipIf_redraw (c : Bool) : (s.skipIf c).redraw = s.redraw := rfl
@[simp] theorem skipIf_font (c : Bool) : (s.skipIf c).font = s.font := rfl
@[simp] theorem skipIf_draws (c : Bool) : (s.skipIf c).draws = s.draws := rfl
@[simp] theorem skipIf_schedule (c : Bool) : (s.skipIf c).schedule = s.schedule := rfl

@[simp] theorem takeFault_v (code : FaultCode) (w : Option Word) (a : Option Nat) (k : Option Byte) :
    (takeFault code w a k s).v = s.v := rfl
@[simp] theorem takeFault_i (code : FaultCode) (w : Option Word) (a : Option Nat) (k : Option Byte) :
    (takeFault code w a k s).i = s.i := rfl
@[simp] theorem takeFault_pc (code : FaultCode) (w : Option Word) (a : Option Nat) (k : Option Byte) :
    (takeFault code w a k s).pc = s.pc := rfl
@[simp] theorem takeFault_sp (code : FaultCode) (w : Option Word) (a : Option Nat) (k : Option Byte) :
    (takeFault code w a k s).sp = s.sp := rfl
@[simp] theorem takeFault_stack (code : FaultCode) (w : Option Word) (a : Option Nat) (k : Option Byte) :
    (takeFault code w a k s).stack = s.stack := rfl
@[simp] theorem takeFault_dt (code : FaultCode) (w : Option Word) (a : Option Nat) (k : Option Byte) :
    (takeFault code w a k s).dt = s.dt := rfl
@[simp] theorem takeFault_st (code : FaultCode) (w : Option Word) (a : Option Nat) (k : Option Byte) :
    (takeFault code w a k s).st = s.st := rfl
@[simp] theorem takeFault_key (code : FaultCode) (w : Option Word) (a : Option Nat) (k : Option Byte) :
    (takeFault code w a k s).key = s.key := rfl
@[simp] theorem takeFault_fb (code : FaultCode) (w : Option Word) (a : Option Nat) (k : Option Byte) :
    (takeFault code w a k s).fb = s.fb := rfl
@[simp] theorem takeFault_mem (code : FaultCode) (w : Option Word) (a : Option Nat) (k : Option Byte) :
    (takeFault code w a k s).mem = s.mem := rfl
@[simp] theorem takeFault_status (code : FaultCode) (w : Option Word) (a : Option Nat) (k : Option Byte) :
    (takeFault code w a k s).status = .faulted := rfl
@[simp] theorem takeFault_faultRecord (code : FaultCode) (w : Option Word) (a : Option Nat) (k : Option Byte) :
    (takeFault code w a k s).faultRecord =
      some { code := code, pc := s.pc, word := w, sp := s.sp, addr := a, key := k } := rfl
@[simp] theorem takeFault_redraw (code : FaultCode) (w : Option Word) (a : Option Nat) (k : Option Byte) :
    (takeFault code w a k s).redraw = false := rfl
@[simp] theorem takeFault_font (code : FaultCode) (w : Option Word) (a : Option Nat) (k : Option Byte) :
    (takeFault code w a k s).font = s.font := rfl
@[simp] theorem takeFault_draws (code : FaultCode) (w : Option Word) (a : Option Nat) (k : Option Byte) :
    (takeFault code w a k s).draws = s.draws := rfl
@[simp] theorem takeFault_schedule (code : FaultCode) (w : Option Word) (a : Option Nat) (k : Option Byte) :
    (takeFault code w a k s).schedule = s.schedule := rfl

@[simp] theorem getV_setI (a : Word) (y : Nibble) : (s.setI a).getV y = s.getV y := rfl
@[simp] theorem getV_setPc (a : Word) (y : Nibble) : (s.setPc a).getV y = s.getV y := rfl
@[simp] theorem getV_setSp (n : Fin 16) (y : Nibble) : (s.setSp n).getV y = s.getV y := rfl
@[simp] theorem getV_setSlot (j : Fin 16) (a : Word) (y : Nibble) : (s.setSlot j a).getV y = s.getV y := rfl
@[simp] theorem getV_setDt (b : Byte) (y : Nibble) : (s.setDt b).getV y = s.getV y := rfl
@[simp] theorem getV_setSt (b : Byte) (y : Nibble) : (s.setSt b).getV y = s.getV y := rfl
@[simp] theorem getV_setKey (k : Nibble) (p : Bool) (y : Nibble) : (s.setKey k p).getV y = s.getV y := rfl
@[simp] theorem getV_setFb (f : Vector Row 32) (y : Nibble) : (s.setFb f).getV y = s.getV y := rfl
@[simp] theorem getV_setMem (m : Memory) (y : Nibble) : (s.setMem m).getV y = s.getV y := rfl
@[simp] theorem getV_setStatus (q : Status) (y : Nibble) : (s.setStatus q).getV y = s.getV y := rfl
@[simp] theorem getV_setRedraw (b : Bool) (y : Nibble) : (s.setRedraw b).getV y = s.getV y := rfl
@[simp] theorem getV_setFont (f : Vector Byte 80) (y : Nibble) : (s.setFont f).getV y = s.getV y := rfl
@[simp] theorem getV_setDraws (n : Nat) (y : Nibble) : (s.setDraws n).getV y = s.getV y := rfl
@[simp] theorem getV_setSchedule (l : List Turn) (y : Nibble) : (s.setSchedule l).getV y = s.getV y := rfl
@[simp] theorem getV_advance (y : Nibble) : (s.advance).getV y = s.getV y := rfl
@[simp] theorem getV_skipIf (c : Bool) (y : Nibble) : (s.skipIf c).getV y = s.getV y := rfl
@[simp] theorem getV_takeFault (code : FaultCode) (w : Option Word) (a : Option Nat) (k : Option Byte)
    (y : Nibble) :
    (takeFault code w a k s).getV y = s.getV y := rfl

@[simp] theorem getKey_setV (x : Nibble) (b : Byte) (y : Nibble) : (s.setV x b).getKey y = s.getKey y := rfl
@[simp] theorem getKey_setI (a : Word) (y : Nibble) : (s.setI a).getKey y = s.getKey y := rfl
@[simp] theorem getKey_setPc (a : Word) (y : Nibble) : (s.setPc a).getKey y = s.getKey y := rfl
@[simp] theorem getKey_setSp (n : Fin 16) (y : Nibble) : (s.setSp n).getKey y = s.getKey y := rfl
@[simp] theorem getKey_setSlot (j : Fin 16) (a : Word) (y : Nibble) : (s.setSlot j a).getKey y = s.getKey y := rfl
@[simp] theorem getKey_setDt (b : Byte) (y : Nibble) : (s.setDt b).getKey y = s.getKey y := rfl
@[simp] theorem getKey_setSt (b : Byte) (y : Nibble) : (s.setSt b).getKey y = s.getKey y := rfl
@[simp] theorem getKey_setFb (f : Vector Row 32) (y : Nibble) : (s.setFb f).getKey y = s.getKey y := rfl
@[simp] theorem getKey_setMem (m : Memory) (y : Nibble) : (s.setMem m).getKey y = s.getKey y := rfl
@[simp] theorem getKey_setStatus (q : Status) (y : Nibble) : (s.setStatus q).getKey y = s.getKey y := rfl
@[simp] theorem getKey_setRedraw (b : Bool) (y : Nibble) : (s.setRedraw b).getKey y = s.getKey y := rfl
@[simp] theorem getKey_setFont (f : Vector Byte 80) (y : Nibble) : (s.setFont f).getKey y = s.getKey y := rfl
@[simp] theorem getKey_setDraws (n : Nat) (y : Nibble) : (s.setDraws n).getKey y = s.getKey y := rfl
@[simp] theorem getKey_setSchedule (l : List Turn) (y : Nibble) : (s.setSchedule l).getKey y = s.getKey y := rfl
@[simp] theorem getKey_advance (y : Nibble) : (s.advance).getKey y = s.getKey y := rfl
@[simp] theorem getKey_skipIf (c : Bool) (y : Nibble) : (s.skipIf c).getKey y = s.getKey y := rfl
@[simp] theorem getKey_takeFault (code : FaultCode) (w : Option Word) (a : Option Nat) (k : Option Byte)
    (y : Nibble) :
    (takeFault code w a k s).getKey y = s.getKey y := rfl

@[simp] theorem getSlot_setV (x : Nibble) (b : Byte) (y : Fin 16) : (s.setV x b).getSlot y = s.getSlot y := rfl
@[simp] theorem getSlot_setI (a : Word) (y : Fin 16) : (s.setI a).getSlot y = s.getSlot y := rfl
@[simp] theorem getSlot_setPc (a : Word) (y : Fin 16) : (s.setPc a).getSlot y = s.getSlot y := rfl
@[simp] theorem getSlot_setSp (n : Fin 16) (y : Fin 16) : (s.setSp n).getSlot y = s.getSlot y := rfl
@[simp] theorem getSlot_setDt (b : Byte) (y : Fin 16) : (s.setDt b).getSlot y = s.getSlot y := rfl
@[simp] theorem getSlot_setSt (b : Byte) (y : Fin 16) : (s.setSt b).getSlot y = s.getSlot y := rfl
@[simp] theorem getSlot_setKey (k : Nibble) (p : Bool) (y : Fin 16) : (s.setKey k p).getSlot y = s.getSlot y := rfl
@[simp] theorem getSlot_setFb (f : Vector Row 32) (y : Fin 16) : (s.setFb f).getSlot y = s.getSlot y := rfl
@[simp] theorem getSlot_setMem (m : Memory) (y : Fin 16) : (s.setMem m).getSlot y = s.getSlot y := rfl
@[simp] theorem getSlot_setStatus (q : Status) (y : Fin 16) : (s.setStatus q).getSlot y = s.getSlot y := rfl
@[simp] theorem getSlot_setRedraw (b : Bool) (y : Fin 16) : (s.setRedraw b).getSlot y = s.getSlot y := rfl
@[simp] theorem getSlot_setFont (f : Vector Byte 80) (y : Fin 16) : (s.setFont f).getSlot y = s.getSlot y := rfl
@[simp] theorem getSlot_setDraws (n : Nat) (y : Fin 16) : (s.setDraws n).getSlot y = s.getSlot y := rfl
@[simp] theorem getSlot_setSchedule (l : List Turn) (y : Fin 16) : (s.setSchedule l).getSlot y = s.getSlot y := rfl
@[simp] theorem getSlot_advance (y : Fin 16) : (s.advance).getSlot y = s.getSlot y := rfl
@[simp] theorem getSlot_skipIf (c : Bool) (y : Fin 16) : (s.skipIf c).getSlot y = s.getSlot y := rfl
@[simp] theorem getSlot_takeFault (code : FaultCode) (w : Option Word) (a : Option Nat) (k : Option Byte)
    (y : Fin 16) :
    (takeFault code w a k s).getSlot y = s.getSlot y := rfl

@[simp] theorem readByte_setV (x : Nibble) (b : Byte) (y : Nat) : (s.setV x b).readByte y = s.readByte y := rfl
@[simp] theorem readByte_setI (a : Word) (y : Nat) : (s.setI a).readByte y = s.readByte y := rfl
@[simp] theorem readByte_setPc (a : Word) (y : Nat) : (s.setPc a).readByte y = s.readByte y := rfl
@[simp] theorem readByte_setSp (n : Fin 16) (y : Nat) : (s.setSp n).readByte y = s.readByte y := rfl
@[simp] theorem readByte_setSlot (j : Fin 16) (a : Word) (y : Nat) : (s.setSlot j a).readByte y = s.readByte y := rfl
@[simp] theorem readByte_setDt (b : Byte) (y : Nat) : (s.setDt b).readByte y = s.readByte y := rfl
@[simp] theorem readByte_setSt (b : Byte) (y : Nat) : (s.setSt b).readByte y = s.readByte y := rfl
@[simp] theorem readByte_setKey (k : Nibble) (p : Bool) (y : Nat) : (s.setKey k p).readByte y = s.readByte y := rfl
@[simp] theorem readByte_setFb (f : Vector Row 32) (y : Nat) : (s.setFb f).readByte y = s.readByte y := rfl
@[simp] theorem readByte_setStatus (q : Status) (y : Nat) : (s.setStatus q).readByte y = s.readByte y := rfl
@[simp] theorem readByte_setRedraw (b : Bool) (y : Nat) : (s.setRedraw b).readByte y = s.readByte y := rfl
@[simp] theorem readByte_setFont (f : Vector Byte 80) (y : Nat) : (s.setFont f).readByte y = s.readByte y := rfl
@[simp] theorem readByte_setDraws (n : Nat) (y : Nat) : (s.setDraws n).readByte y = s.readByte y := rfl
@[simp] theorem readByte_setSchedule (l : List Turn) (y : Nat) : (s.setSchedule l).readByte y = s.readByte y := rfl
@[simp] theorem readByte_advance (y : Nat) : (s.advance).readByte y = s.readByte y := rfl
@[simp] theorem readByte_skipIf (c : Bool) (y : Nat) : (s.skipIf c).readByte y = s.readByte y := rfl
@[simp] theorem readByte_takeFault (code : FaultCode) (w : Option Word) (a : Option Nat) (k : Option Byte)
    (y : Nat) :
    (takeFault code w a k s).readByte y = s.readByte y := rfl

@[simp] theorem pixel_setV (x : Nibble) (b : Byte) (y : Fin 32) (z : Nat) : (s.setV x b).pixel y z = s.pixel y z := rfl
@[simp] theorem pixel_setI (a : Word) (y : Fin 32) (z : Nat) : (s.setI a).pixel y z = s.pixel y z := rfl
@[simp] theorem pixel_setPc (a : Word) (y : Fin 32) (z : Nat) : (s.setPc a).pixel y z = s.pixel y z := rfl
@[simp] theorem pixel_setSp (n : Fin 16) (y : Fin 32) (z : Nat) : (s.setSp n).pixel y z = s.pixel y z := rfl
@[simp] theorem pixel_setSlot (j : Fin 16) (a : Word) (y : Fin 32) (z : Nat) :
    (s.setSlot j a).pixel y z = s.pixel y z := rfl
@[simp] theorem pixel_setDt (b : Byte) (y : Fin 32) (z : Nat) : (s.setDt b).pixel y z = s.pixel y z := rfl
@[simp] theorem pixel_setSt (b : Byte) (y : Fin 32) (z : Nat) : (s.setSt b).pixel y z = s.pixel y z := rfl
@[simp] theorem pixel_setKey (k : Nibble) (p : Bool) (y : Fin 32) (z : Nat) :
    (s.setKey k p).pixel y z = s.pixel y z := rfl
@[simp] theorem pixel_setMem (m : Memory) (y : Fin 32) (z : Nat) : (s.setMem m).pixel y z = s.pixel y z := rfl
@[simp] theorem pixel_setStatus (q : Status) (y : Fin 32) (z : Nat) : (s.setStatus q).pixel y z = s.pixel y z := rfl
@[simp] theorem pixel_setRedraw (b : Bool) (y : Fin 32) (z : Nat) : (s.setRedraw b).pixel y z = s.pixel y z := rfl
@[simp] theorem pixel_setFont (f : Vector Byte 80) (y : Fin 32) (z : Nat) : (s.setFont f).pixel y z = s.pixel y z := rfl
@[simp] theorem pixel_setDraws (n : Nat) (y : Fin 32) (z : Nat) : (s.setDraws n).pixel y z = s.pixel y z := rfl
@[simp] theorem pixel_setSchedule (l : List Turn) (y : Fin 32) (z : Nat) :
    (s.setSchedule l).pixel y z = s.pixel y z := rfl
@[simp] theorem pixel_advance (y : Fin 32) (z : Nat) : (s.advance).pixel y z = s.pixel y z := rfl
@[simp] theorem pixel_skipIf (c : Bool) (y : Fin 32) (z : Nat) : (s.skipIf c).pixel y z = s.pixel y z := rfl
@[simp] theorem pixel_takeFault (code : FaultCode) (w : Option Word) (a : Option Nat) (k : Option Byte)
    (y : Fin 32) (z : Nat) :
    (takeFault code w a k s).pixel y z = s.pixel y z := rfl

@[simp] theorem regsUpTo_setI (a : Word) (y : Nibble) : (s.setI a).regsUpTo y = s.regsUpTo y := rfl
@[simp] theorem regsUpTo_setPc (a : Word) (y : Nibble) : (s.setPc a).regsUpTo y = s.regsUpTo y := rfl
@[simp] theorem regsUpTo_setSp (n : Fin 16) (y : Nibble) : (s.setSp n).regsUpTo y = s.regsUpTo y := rfl
@[simp] theorem regsUpTo_setSlot (j : Fin 16) (a : Word) (y : Nibble) : (s.setSlot j a).regsUpTo y = s.regsUpTo y := rfl
@[simp] theorem regsUpTo_setDt (b : Byte) (y : Nibble) : (s.setDt b).regsUpTo y = s.regsUpTo y := rfl
@[simp] theorem regsUpTo_setSt (b : Byte) (y : Nibble) : (s.setSt b).regsUpTo y = s.regsUpTo y := rfl
@[simp] theorem regsUpTo_setKey (k : Nibble) (p : Bool) (y : Nibble) : (s.setKey k p).regsUpTo y = s.regsUpTo y := rfl
@[simp] theorem regsUpTo_setFb (f : Vector Row 32) (y : Nibble) : (s.setFb f).regsUpTo y = s.regsUpTo y := rfl
@[simp] theorem regsUpTo_setMem (m : Memory) (y : Nibble) : (s.setMem m).regsUpTo y = s.regsUpTo y := rfl
@[simp] theorem regsUpTo_setStatus (q : Status) (y : Nibble) : (s.setStatus q).regsUpTo y = s.regsUpTo y := rfl
@[simp] theorem regsUpTo_setRedraw (b : Bool) (y : Nibble) : (s.setRedraw b).regsUpTo y = s.regsUpTo y := rfl
@[simp] theorem regsUpTo_setFont (f : Vector Byte 80) (y : Nibble) : (s.setFont f).regsUpTo y = s.regsUpTo y := rfl
@[simp] theorem regsUpTo_setDraws (n : Nat) (y : Nibble) : (s.setDraws n).regsUpTo y = s.regsUpTo y := rfl
@[simp] theorem regsUpTo_setSchedule (l : List Turn) (y : Nibble) : (s.setSchedule l).regsUpTo y = s.regsUpTo y := rfl
@[simp] theorem regsUpTo_advance (y : Nibble) : (s.advance).regsUpTo y = s.regsUpTo y := rfl
@[simp] theorem regsUpTo_skipIf (c : Bool) (y : Nibble) : (s.skipIf c).regsUpTo y = s.regsUpTo y := rfl
@[simp] theorem regsUpTo_takeFault (code : FaultCode) (w : Option Word) (a : Option Nat) (k : Option Byte)
    (y : Nibble) :
    (takeFault code w a k s).regsUpTo y = s.regsUpTo y := rfl

@[simp] theorem result_i (x : Nibble) (b : Byte) : (s.result x b).i = s.i := rfl
@[simp] theorem resultWithFlag_i (x : Nibble) (b : Byte) (c : Bool) : (s.resultWithFlag x b c).i = s.i := rfl
@[simp] theorem result_sp (x : Nibble) (b : Byte) : (s.result x b).sp = s.sp := rfl
@[simp] theorem resultWithFlag_sp (x : Nibble) (b : Byte) (c : Bool) : (s.resultWithFlag x b c).sp = s.sp := rfl
@[simp] theorem result_stack (x : Nibble) (b : Byte) : (s.result x b).stack = s.stack := rfl
@[simp] theorem resultWithFlag_stack (x : Nibble) (b : Byte) (c : Bool) :
    (s.resultWithFlag x b c).stack = s.stack := rfl
@[simp] theorem result_dt (x : Nibble) (b : Byte) : (s.result x b).dt = s.dt := rfl
@[simp] theorem resultWithFlag_dt (x : Nibble) (b : Byte) (c : Bool) : (s.resultWithFlag x b c).dt = s.dt := rfl
@[simp] theorem result_st (x : Nibble) (b : Byte) : (s.result x b).st = s.st := rfl
@[simp] theorem resultWithFlag_st (x : Nibble) (b : Byte) (c : Bool) : (s.resultWithFlag x b c).st = s.st := rfl
@[simp] theorem result_key (x : Nibble) (b : Byte) : (s.result x b).key = s.key := rfl
@[simp] theorem resultWithFlag_key (x : Nibble) (b : Byte) (c : Bool) : (s.resultWithFlag x b c).key = s.key := rfl
@[simp] theorem result_fb (x : Nibble) (b : Byte) : (s.result x b).fb = s.fb := rfl
@[simp] theorem resultWithFlag_fb (x : Nibble) (b : Byte) (c : Bool) : (s.resultWithFlag x b c).fb = s.fb := rfl
@[simp] theorem result_mem (x : Nibble) (b : Byte) : (s.result x b).mem = s.mem := rfl
@[simp] theorem resultWithFlag_mem (x : Nibble) (b : Byte) (c : Bool) : (s.resultWithFlag x b c).mem = s.mem := rfl
@[simp] theorem result_status (x : Nibble) (b : Byte) : (s.result x b).status = s.status := rfl
@[simp] theorem resultWithFlag_status (x : Nibble) (b : Byte) (c : Bool) :
    (s.resultWithFlag x b c).status = s.status := rfl
@[simp] theorem result_faultRecord (x : Nibble) (b : Byte) : (s.result x b).faultRecord = s.faultRecord := rfl
@[simp] theorem resultWithFlag_faultRecord (x : Nibble) (b : Byte) (c : Bool) :
    (s.resultWithFlag x b c).faultRecord = s.faultRecord := rfl
@[simp] theorem result_redraw (x : Nibble) (b : Byte) : (s.result x b).redraw = s.redraw := rfl
@[simp] theorem resultWithFlag_redraw (x : Nibble) (b : Byte) (c : Bool) :
    (s.resultWithFlag x b c).redraw = s.redraw := rfl
@[simp] theorem result_font (x : Nibble) (b : Byte) : (s.result x b).font = s.font := rfl
@[simp] theorem resultWithFlag_font (x : Nibble) (b : Byte) (c : Bool) : (s.resultWithFlag x b c).font = s.font := rfl
@[simp] theorem result_draws (x : Nibble) (b : Byte) : (s.result x b).draws = s.draws := rfl
@[simp] theorem resultWithFlag_draws (x : Nibble) (b : Byte) (c : Bool) :
    (s.resultWithFlag x b c).draws = s.draws := rfl
@[simp] theorem result_schedule (x : Nibble) (b : Byte) : (s.result x b).schedule = s.schedule := rfl
@[simp] theorem resultWithFlag_schedule (x : Nibble) (b : Byte) (c : Bool) :
    (s.resultWithFlag x b c).schedule = s.schedule := rfl
@[simp] theorem result_pc (x : Nibble) (b : Byte) : (s.result x b).pc = s.pc + 2 := rfl
@[simp] theorem resultWithFlag_pc (x : Nibble) (b : Byte) (c : Bool) : (s.resultWithFlag x b c).pc = s.pc + 2 := rfl

end Sys2Proof.Machine
end

