-- ==== Sys2Proof/Laws/Ops.lean ====
section
/-! SUPPORT. One lemma per shared operation that says what it does; later proofs cite it instead of unfolding. -/

namespace Sys2Proof.Machine

variable (s : State)

/-! ## Reading what was written -/

theorem getV_setV (x : Nibble) (b : Byte) (y : Nibble) : (s.setV x b).getV y = if y = x then b else s.getV y := by
  by_cases h : y = x
  · simp [State.getV, h]
  · have : ¬ x.toNat = y.toNat := fun e => h (BitVec.eq_of_toNat_eq e.symm)
    simp [State.getV, h, this]

@[simp] theorem getV_setV_same (x : Nibble) (b : Byte) : (s.setV x b).getV x = b := by simp [getV_setV]

theorem getV_setV_other (b : Byte) {x y : Nibble} (h : y ≠ x) : (s.setV x b).getV y = s.getV y := by
  simp [getV_setV, h]

theorem getKey_setKey (k : Nibble) (p : Bool) (y : Nibble) :
    (s.setKey k p).getKey y = if y = k then p else s.getKey y := by
  by_cases h : y = k
  · simp [State.getKey, h]
  · have : ¬ k.toNat = y.toNat := fun e => h (BitVec.eq_of_toNat_eq e.symm)
    simp [State.getKey, h, this]

theorem getSlot_setSlot (j : Fin 16) (a : Word) (y : Fin 16) :
    (s.setSlot j a).getSlot y = if y = j then a else s.getSlot y := by
  by_cases h : y = j
  · simp [State.getSlot, h]
  · have : ¬ j.val = y.val := fun e => h (Fin.ext e.symm)
    simp [State.getSlot, h, this]

/-- Two register files that read alike are equal. -/
theorem v_ext {s t : State} (h : ∀ x, s.getV x = t.getV x) : s.v = t.v := by
  apply Vector.ext
  intro j hj
  have := h (BitVec.ofNat 4 j)
  simpa [State.getV, Nat.mod_eq_of_lt hj] using this

/-! ## Results -/

theorem getV_result (x : Nibble) (b : Byte) (y : Nibble) :
    (s.result x b).getV y = if y = x then b else s.getV y := by simp [State.result, getV_setV]

/-- VF takes the flag last: when x is VF the result is lost (10_state.md R17). -/
theorem getV_resultWithFlag (x : Nibble) (b : Byte) (c : Bool) (y : Nibble) :
    (s.resultWithFlag x b c).getV y = if y = vf then flagByte c else if y = x then b else s.getV y := by
  simp [State.resultWithFlag, getV_setV]

/-! ## The call stack -/

theorem push_eq_some {s : State} (a : Word) (h : s.sp.val < 15) :
    s.push a = some ((s.setSp ⟨s.sp.val + 1, by omega⟩).setSlot ⟨s.sp.val + 1, by omega⟩ a) := by
  simp [State.push, show s.sp.val + 1 < 16 by omega]

theorem push_eq_none {s : State} (a : Word) (h : s.sp.val = 15) : s.push a = none := by simp [State.push, h]

theorem pop_eq_some {s : State} (h : 0 < s.sp.val) :
    s.pop = some (s.getSlot s.sp, s.setSp ⟨s.sp.val - 1, by omega⟩) := by
  simp only [State.pop, show s.sp.val ≠ 0 by omega, if_false]

theorem pop_eq_none {s : State} (h : s.sp.val = 0) : s.pop = none := by simp only [State.pop, h, if_true]

/-! ## Blocks -/

theorem blockInRange_iff (a : Word) (n : Nat) :
    blockInRange a n = true ↔ n = 0 ∨ a.toNat + n ≤ Config.memSize := by simp [blockInRange]

theorem readBlock_eq_some {s : State} {n : Nat} (h : n = 0 ∨ s.i.toNat + n ≤ Config.memSize) :
    s.readBlock n = some (s.mem.readBytes s.i.toNat n) := by
  simp [State.readBlock, (blockInRange_iff _ _).mpr h]

theorem readBlock_eq_none {s : State} {n : Nat} (h : 0 < n ∧ Config.memSize < s.i.toNat + n) :
    s.readBlock n = none := by
  have : ¬ blockInRange s.i n = true := by rw [blockInRange_iff]; omega
  simp [State.readBlock, this]

theorem writeBlock_eq_some {s : State} {bs : List Byte}
    (h : bs.length = 0 ∨ s.i.toNat + bs.length ≤ Config.memSize) :
    s.writeBlock bs = some (s.setMem (s.mem.writeBytes s.i.toNat bs)) := by
  simp [State.writeBlock, (blockInRange_iff _ _).mpr h]

theorem writeBlock_eq_none {s : State} {bs : List Byte}
    (h : 0 < bs.length ∧ Config.memSize < s.i.toNat + bs.length) :
    s.writeBlock bs = none := by
  have : ¬ blockInRange s.i bs.length = true := by rw [blockInRange_iff]; omega
  simp [State.writeBlock, this]

@[simp] theorem length_bcdDigits (b : Byte) : (bcdDigits b).length = 3 := rfl

@[simp] theorem length_regsUpTo (x : Nibble) : (s.regsUpTo x).length = x.toNat + 1 := by
  have := x.isLt
  simp [State.regsUpTo]; omega

theorem getElem_regsUpTo (x : Nibble) (j : Nat) (h : j < (s.regsUpTo x).length) :
    (s.regsUpTo x)[j] = s.getV (BitVec.ofNat 4 j) := by
  have hj : j < 16 := by have := x.isLt; simp only [length_regsUpTo] at h; omega
  simp [State.regsUpTo, State.getV, Nat.mod_eq_of_lt hj]

/-- A register load changes registers only. -/
theorem loadRegsFrom_frame (x : Nibble) (bs : List Byte) :
    s.loadRegsFrom x bs = { s with v := (s.loadRegsFrom x bs).v } := by
  induction bs generalizing s x with
  | nil => rfl
  | cons b rest ih => simp only [State.loadRegsFrom]; rw [ih (s.setV x b) (x + 1)]; rfl

/-- A register load puts the j-th byte into the j-th register from x on, and leaves the others. -/
theorem getV_loadRegsFrom (x : Nibble) (bs : List Byte) (y : Nibble) (h : x.toNat + bs.length ≤ 16) :
    (s.loadRegsFrom x bs).getV y =
      if hy : x.toNat ≤ y.toNat ∧ y.toNat < x.toNat + bs.length then bs[y.toNat - x.toNat]'(by omega)
      else s.getV y := by
  induction bs generalizing s x with
  | nil => rw [dif_neg (by simp only [List.length_nil]; omega)]; rfl
  | cons b rest ih =>
    simp only [List.length_cons] at h
    by_cases hr : rest = []
    · subst hr
      simp only [State.loadRegsFrom, getV_setV, List.length_cons, List.length_nil]
      by_cases hyx : y = x
      · subst hyx; simp
      · have : y.toNat ≠ x.toNat := fun e => hyx (BitVec.eq_of_toNat_eq e)
        rw [if_neg hyx, dif_neg (by omega)]
    · have hlen : 0 < rest.length := List.length_pos_of_ne_nil hr
      have hx1 : (x + 1).toNat = x.toNat + 1 := by
        rw [BitVec.toNat_add, show (1 : Nibble).toNat = 1 from rfl]; omega
      simp only [State.loadRegsFrom]
      rw [ih (s.setV x b) (x + 1) (by omega)]
      simp only [hx1, List.length_cons, getV_setV]
      by_cases hyx : y = x
      · subst hyx
        rw [dif_neg (by omega), dif_pos (by omega), if_pos rfl]
        simp
      · have hne : y.toNat ≠ x.toNat := fun e => hyx (BitVec.eq_of_toNat_eq e)
        rw [if_neg hyx]
        by_cases hy : x.toNat + 1 ≤ y.toNat ∧ y.toNat < x.toNat + 1 + rest.length
        · rw [dif_pos hy, dif_pos (by omega)]
          simp only [show y.toNat - x.toNat = (y.toNat - (x.toNat + 1)) + 1 by omega, List.getElem_cons_succ]
        · rw [dif_neg hy, dif_neg (by omega)]

/-! ## Keys -/

theorem keyIndex_eq_some {b : Byte} (h : b.toNat < 16) : keyIndex b = some (b.setWidth 4) := by simp [keyIndex, h]

theorem keyIndex_eq_none {b : Byte} (h : 16 ≤ b.toNat) : keyIndex b = none := by
  simp [keyIndex, show ¬ b.toNat < 16 by omega]

/-! ## Drawing -/

/-- Which sprite row lands in framebuffer row q when the sprite is drawn at y (45_display.md R110). -/
def spriteOffset (y : Byte) (q : Fin 32) : Nat := (q.val + 32 - y.toNat % 32) % 32

theorem drawRow_eq_iff (y : Byte) (q : Fin 32) {r : Nat} (h : r < 32) : drawRow y r = q ↔ spriteOffset y q = r := by
  have := q.isLt
  constructor
  · intro e; rw [← e]; simp only [spriteOffset, drawRow]; omega
  · intro e; apply Fin.ext; simp only [spriteOffset] at e; simp only [drawRow]; omega

@[simp] theorem spriteRow_zero (x : Byte) : spriteRow 0#8 x = 0#64 := by simp [spriteRow, rotr64]

/-- The pattern that the sprite rows r, r + 1, ... put into framebuffer row q, 0 where none lands there. -/
def patternAt (x y : Byte) (r : Nat) (sprite : List Byte) (q : Fin 32) : Row :=
  if r ≤ spriteOffset y q then spriteRow (sprite.getD (spriteOffset y q - r) 0) x else 0

/-- The first sprite row goes to its own framebuffer row; the others are the rest's. -/
theorem patternAt_cons (x y : Byte) {r : Nat} (b : Byte) (rest : List Byte) (q : Fin 32) (h : r < 32) :
    patternAt x y r (b :: rest) q =
      if drawRow y r = q then spriteRow b x else patternAt x y (r + 1) rest q := by
  simp only [drawRow_eq_iff y q h]
  unfold patternAt
  split
  next hle =>
    split
    next he => simp [he]
    next hne =>
      rw [if_pos (by omega), show spriteOffset y q - r = (spriteOffset y q - (r + 1)) + 1 by omega]
      simp
  next hgt =>
    rw [if_neg (by omega), if_neg (by omega)]

theorem patternAt_own_row (x y : Byte) {r : Nat} (rest : List Byte) (h : r < 32) :
    patternAt x y (r + 1) rest (drawRow y r) = 0 := by
  have := (drawRow_eq_iff y (drawRow y r) h).mp rfl
  simp [patternAt, this]

/-- What a draw leaves in each framebuffer row: the pattern of the sprite row that lands there, XORed in. -/
theorem drawFrom_row (x y : Byte) (r : Nat) (sprite : List Byte) (fb : Vector Row 32) (q : Fin 32)
    (h : r + sprite.length ≤ 32) :
    (drawFrom x y r sprite fb).1[q] = fb[q] ^^^ patternAt x y r sprite q := by
  induction sprite generalizing r fb with
  | nil => simp [drawFrom, patternAt]
  | cons b rest ih =>
    simp only [List.length_cons] at h
    simp only [drawFrom]
    rw [ih (r + 1) _ (by omega), patternAt_cons x y b rest q (by omega)]
    by_cases he : drawRow y r = q
    · subst he
      simp [patternAt_own_row x y rest (show r < 32 by omega)]
    · have : ¬ (drawRow y r).val = q.val := fun e => he (Fin.ext e)
      simp [he, this]

/-- A draw collides exactly when some framebuffer row and the pattern that lands there have a bit in common. -/
theorem drawFrom_collides (x y : Byte) (r : Nat) (sprite : List Byte) (fb : Vector Row 32)
    (h : r + sprite.length ≤ 32) :
    (drawFrom x y r sprite fb).2 = true ↔ ∃ q : Fin 32, fb[q] &&& patternAt x y r sprite q ≠ 0 := by
  induction sprite generalizing r fb with
  | nil => simp [drawFrom, patternAt]
  | cons b rest ih =>
    simp only [List.length_cons] at h
    simp only [drawFrom, Bool.or_eq_true, bne_iff_ne]
    rw [ih (r + 1) _ (by omega)]
    constructor
    · rintro (hit | ⟨q, hq⟩)
      · refine ⟨drawRow y r, ?_⟩
        rw [patternAt_cons x y b rest _ (by omega), if_pos rfl]
        exact hit
      · refine ⟨q, ?_⟩
        rw [patternAt_cons x y b rest _ (by omega)]
        by_cases he : drawRow y r = q
        · subst he
          simp [patternAt_own_row x y rest (show r < 32 by omega)] at hq
        · have : ¬ (drawRow y r).val = q.val := fun e => he (Fin.ext e)
          simpa [he, this] using hq
    · rintro ⟨q, hq⟩
      rw [patternAt_cons x y b rest _ (by omega)] at hq
      by_cases he : drawRow y r = q
      · subst he
        left
        simpa using hq
      · right
        refine ⟨q, ?_⟩
        have : ¬ (drawRow y r).val = q.val := fun e => he (Fin.ext e)
        simpa [he, this] using hq

end Sys2Proof.Machine
end

