-- ==== Sys2Proof/Laws/Exec.lean ====
section
/-! SUPPORT. One lemma per outcome of the meanings that have two: the effect, or fault entry. -/

namespace Sys2Proof.Machine

variable {s : State}

theorem execCall_next (nnn : Imm12) (h : s.sp.val < 15) :
    execCall nnn s = .next (((s.setSp ⟨s.sp.val + 1, by omega⟩).setSlot ⟨s.sp.val + 1, by omega⟩ s.pc).setPc
      (zextImm12 nnn)) := by simp only [execCall, push_eq_some s.pc h]

theorem execCall_fault (nnn : Imm12) (h : s.sp.val = 15) :
    execCall nnn s = .next (takeFault .stackOverflow (some (encode (.call nnn))) none none s) := by
  simp only [execCall, push_eq_none s.pc h]

theorem execRet_next (ign : Nibble) (h : 0 < s.sp.val) :
    execRet ign s = .next ((s.setSp ⟨s.sp.val - 1, by omega⟩).setPc (s.getSlot s.sp)) := by
  simp only [execRet, pop_eq_some h]

theorem execRet_fault (ign : Nibble) (h : s.sp.val = 0) :
    execRet ign s = .next (takeFault .stackUnderflow (some (encode (.ret ign))) none none s) := by
  simp only [execRet, pop_eq_none h]

theorem skipOnKey_next (wanted : Bool) (x : Nibble) (w : Word) (h : (s.getV x).toNat < 16) :
    skipOnKey wanted x w s = .next (s.skipIf (s.getKey ((s.getV x).setWidth 4) == wanted)) := by
  simp only [skipOnKey, keyIndex_eq_some h]

theorem skipOnKey_fault (wanted : Bool) (x : Nibble) (w : Word) (h : 16 ≤ (s.getV x).toNat) :
    skipOnKey wanted x w s = .next (takeFault .keyOutOfRange (some w) none (some (s.getV x)) s) := by
  simp only [skipOnKey, keyIndex_eq_none h]

theorem execLdBcd_next (x : Nibble) (h : s.i.toNat + 3 ≤ Config.memSize) :
    execLdBcd x s = .next (s.setMem (s.mem.writeBytes s.i.toNat (bcdDigits (s.getV x)))).advance := by
  simp only [execLdBcd, writeBlock_eq_some (bs := bcdDigits (s.getV x)) (Or.inr h)]

theorem execLdBcd_fault (x : Nibble) (h : Config.memSize < s.i.toNat + 3) :
    execLdBcd x s = .next (memFault (encode (.ldBcd x)) s) := by
  simp only [execLdBcd, writeBlock_eq_none (bs := bcdDigits (s.getV x)) ⟨by simp, h⟩]

theorem storeRegisters_next (advances : Bool) (x : Nibble) (h : s.i.toNat + (x.toNat + 1) ≤ Config.memSize) :
    storeRegisters advances x s =
      .next ((s.setMem (s.mem.writeBytes s.i.toNat (s.regsUpTo x))).advanceIndex advances x).advance := by
  simp only [storeRegisters, writeBlock_eq_some (bs := s.regsUpTo x) (Or.inr (by simpa using h))]

theorem storeRegisters_fault (advances : Bool) (x : Nibble) (h : Config.memSize < s.i.toNat + (x.toNat + 1)) :
    storeRegisters advances x s = .next (memFault (encode (.storeRegs x)) s) := by
  simp only [storeRegisters, writeBlock_eq_none (bs := s.regsUpTo x) ⟨by simp, by simpa using h⟩]

theorem loadRegisters_next (advances : Bool) (x : Nibble) (h : s.i.toNat + (x.toNat + 1) ≤ Config.memSize) :
    loadRegisters advances x s =
      .next ((s.loadRegsFrom 0 (s.mem.readBytes s.i.toNat (x.toNat + 1))).advanceIndex advances x).advance := by
  simp only [loadRegisters, readBlock_eq_some (Or.inr h)]

theorem loadRegisters_fault (advances : Bool) (x : Nibble) (h : Config.memSize < s.i.toNat + (x.toNat + 1)) :
    loadRegisters advances x s = .next (memFault (encode (.loadRegs x)) s) := by
  simp only [loadRegisters, readBlock_eq_none ⟨Nat.succ_pos _, h⟩]

theorem execDrw_next (x y n : Nibble) (h : n.toNat = 0 ∨ s.i.toNat + n.toNat ≤ Config.memSize) :
    execDrw x y n s =
      .next (((s.setFb (drawSprite (s.getV x) (s.getV y) (s.mem.readBytes s.i.toNat n.toNat) s.fb).1).setV vf
        (flagByte (drawSprite (s.getV x) (s.getV y) (s.mem.readBytes s.i.toNat n.toNat) s.fb).2)).setRedraw
          true).advance := by
  simp only [execDrw, readBlock_eq_some h]

theorem execDrw_fault (x y n : Nibble) (h : 0 < n.toNat ∧ Config.memSize < s.i.toNat + n.toNat) :
    execDrw x y n s = .next (memFault (encode (.drw x y n)) s) := by
  simp only [execDrw, readBlock_eq_none h]

end Sys2Proof.Machine
end

