-- ==== Sys2Proof/Laws/HostEvents.lean ====
section
/-! SUPPORT. What each host event does, case by case. -/

namespace Sys2Proof.Machine

variable {s : State}

theorem keyEvent_waiting {x : Nibble} (k : Nibble) (p : Bool) (h : s.status = .waitingKey x) :
    keyEvent k p s =
      if p && !s.getKey k then (((s.setKey k true).setV x (zextNibble k)).advance).setStatus .running
      else s.setKey k p := by simp [keyEvent, h]

theorem keyEvent_notWaiting (k : Nibble) (p : Bool) (h : ∀ x, s.status ≠ .waitingKey x) :
    keyEvent k p s = s.setKey k p := by
  unfold keyEvent; split <;> simp_all

/-- Writing the value a key flag has changes nothing. -/
theorem setKey_same {k : Nibble} {p : Bool} (h : s.getKey k = p) : s.setKey k p = s := by
  have hv : s.key.set k.toNat p k.isLt = s.key := by
    apply Vector.ext
    intro j hj
    rw [Vector.getElem_set]
    split
    next e => subst e; exact h.symm
    next => rfl
  unfold State.setKey; rw [hv]

theorem toNat_tickDown (b : Byte) : (tickDown b).toNat = b.toNat - 1 := by revert b; decide

theorem final_of_goesOn (h1 : s.status ≠ .faulted) (h2 : s.status ≠ .stopped) : s.status.final = false := by
  cases h : s.status <;> simp_all [Status.final]

theorem timerTick_goesOn (h : s.status.final = false) :
    timerTick s = (s.setDt (tickDown s.dt)).setSt (tickDown s.st) := by simp [timerTick, h]

theorem timerTick_final (h : s.status.final = true) : timerTick s = s := by simp [timerTick, h]

theorem stopRequest_goesOn (h : s.status.final = false) : stopRequest s = s.setStatus .stopped := by
  simp [stopRequest, h]

theorem stopRequest_final (h : s.status.final = true) : stopRequest s = s := by simp [stopRequest, h]

/-! ## Reset -/

/-- Under the default FONT nothing is listed. -/
theorem resetWithFont_default : resetWithFont defaultFont = State.reset := by decide

theorem resetWithFont_wf (f : Vector Byte 80) : (resetWithFont f).mem.wf = true :=
  Memory.writeBytes_wf rfl (by simp [Config.memSize])

/-- The reset state has canonical memory, with any FONT and any image that fits. -/
theorem resetWith_wf (f : Vector Byte 80) {image : List Byte} (h : image.length ≤ Config.maxImage) :
    (resetWith f image).mem.wf = true :=
  Memory.writeBytes_wf (resetWithFont_wf f)
    (by simp only [Config.loadAddr, Config.memSize, Config.maxImage] at *; omega)

theorem background_above {a : Nat} (h : 80 ≤ a) : Memory.background a = 0 := by
  rw [Memory.background, List.getD_eq_default]; exact h

/-- What every address reads as after reset: FONT below 0x50, 0 from there on. -/
theorem readByte_resetWithFont (f : Vector Byte 80) (a : Nat) :
    (resetWithFont f).readByte a = if a < 80 then f.toList.getD a 0 else 0 := by
  show Memory.read (Memory.writeBytes [] 0 f.toList) a = _
  rw [Memory.read_writeBytes a rfl (by simp [Config.memSize])]
  by_cases h : a < 80
  · simp [h]
  · simp [h, Memory.read, background_above (Nat.le_of_not_lt h)]

/-- The image stands from 0x200 on, and every other byte is as with no image. -/
theorem readByte_resetWith (f : Vector Byte 80) {image : List Byte} (a : Nat) (h : image.length ≤ Config.maxImage) :
    (resetWith f image).readByte a =
      if 0x200 ≤ a ∧ a < 0x200 + image.length then image.getD (a - 0x200) 0 else (resetWithFont f).readByte a :=
  Memory.read_writeBytes a (resetWithFont_wf f)
    (by simp only [Config.loadAddr, Config.memSize, Config.maxImage] at *; omega)

end Sys2Proof.Machine
end

