-- ==== Sys2Proof/Laws/PerInstr.lean ====
section
/-! SUPPORT. Per instruction: the encoded word has its opcode-table row's match under the row's mask
(30_encoding.md R58, spec/opcode_table.json). -/

namespace Sys2Proof.Laws.RowMatch

/-- "mask" of the instruction's row in spec/opcode_table.json. -/
def rowMask : Instr → Word
  | .cls _ | .ret _ => 0xF0FF
  | .jp _ | .call _ | .ldI _ | .jpV0 _ => 0xF000
  | .seImm _ _ | .sneImm _ _ | .ldImm _ _ | .addImm _ _ | .rnd _ _ => 0xF000
  | .seReg _ _ _ | .sneReg _ _ _ | .drw _ _ _ => 0xF000
  | .ldReg _ _ | .orReg _ _ | .andReg _ _ | .xorReg _ _ | .addReg _ _ | .subReg _ _ | .shrReg _ _ | .subnReg _ _
  | .shlReg _ _ => 0xF00F
  | .skp _ | .sknp _ | .ldVxDt _ | .ldVxKey _ | .ldDtVx _ | .ldStVx _ | .addI _ | .ldFont _ | .ldBcd _
  | .storeRegs _ | .loadRegs _ => 0xF0FF

/-- "match" of the instruction's row in spec/opcode_table.json. -/
def rowMatch : Instr → Word
  | .cls _ => 0x00E0
  | .ret _ => 0x00EE
  | .jp _ => 0x1000
  | .call _ => 0x2000
  | .seImm _ _ => 0x3000
  | .sneImm _ _ => 0x4000
  | .seReg _ _ _ => 0x5000
  | .ldImm _ _ => 0x6000
  | .addImm _ _ => 0x7000
  | .ldReg _ _ => 0x8000
  | .orReg _ _ => 0x8001
  | .andReg _ _ => 0x8002
  | .xorReg _ _ => 0x8003
  | .addReg _ _ => 0x8004
  | .subReg _ _ => 0x8005
  | .shrReg _ _ => 0x8006
  | .subnReg _ _ => 0x8007
  | .shlReg _ _ => 0x800E
  | .sneReg _ _ _ => 0x9000
  | .ldI _ => 0xA000
  | .jpV0 _ => 0xB000
  | .rnd _ _ => 0xC000
  | .drw _ _ _ => 0xD000
  | .skp _ => 0xE09E
  | .sknp _ => 0xE0A1
  | .ldVxDt _ => 0xF007
  | .ldVxKey _ => 0xF00A
  | .ldDtVx _ => 0xF015
  | .ldStVx _ => 0xF018
  | .addI _ => 0xF01E
  | .ldFont _ => 0xF029
  | .ldBcd _ => 0xF033
  | .storeRegs _ => 0xF055
  | .loadRegs _ => 0xF065

/-- The encoded word matches its row. -/
def Statement (i : Instr) : Prop := encode i &&& rowMask i = rowMatch i

theorem cls (ign : Nibble) : Statement (.cls ign) := (wordOfByte_and_F0FF _ _ _).trans rfl
theorem ret (ign : Nibble) : Statement (.ret ign) := (wordOfByte_and_F0FF _ _ _).trans rfl
theorem jp (nnn : Imm12) : Statement (.jp nnn) := (wordOfImm12_and_F000 _ _).trans rfl
theorem call (nnn : Imm12) : Statement (.call nnn) := (wordOfImm12_and_F000 _ _).trans rfl
theorem seImm (x : Nibble) (nn : Byte) : Statement (.seImm x nn) := (wordOfByte_and_F000 _ _ _).trans rfl
theorem sneImm (x : Nibble) (nn : Byte) : Statement (.sneImm x nn) := (wordOfByte_and_F000 _ _ _).trans rfl
theorem seReg (x : Nibble) (y : Nibble) (ign : Nibble) : Statement (.seReg x y ign) := (wordOfNibbles_and_F000 _ _ _ _).trans rfl
theorem ldImm (x : Nibble) (nn : Byte) : Statement (.ldImm x nn) := (wordOfByte_and_F000 _ _ _).trans rfl
theorem addImm (x : Nibble) (nn : Byte) : Statement (.addImm x nn) := (wordOfByte_and_F000 _ _ _).trans rfl
theorem ldReg (x : Nibble) (y : Nibble) : Statement (.ldReg x y) := (wordOfNibbles_and_F00F _ _ _ _).trans rfl
theorem orReg (x : Nibble) (y : Nibble) : Statement (.orReg x y) := (wordOfNibbles_and_F00F _ _ _ _).trans rfl
theorem andReg (x : Nibble) (y : Nibble) : Statement (.andReg x y) := (wordOfNibbles_and_F00F _ _ _ _).trans rfl
theorem xorReg (x : Nibble) (y : Nibble) : Statement (.xorReg x y) := (wordOfNibbles_and_F00F _ _ _ _).trans rfl
theorem addReg (x : Nibble) (y : Nibble) : Statement (.addReg x y) := (wordOfNibbles_and_F00F _ _ _ _).trans rfl
theorem subReg (x : Nibble) (y : Nibble) : Statement (.subReg x y) := (wordOfNibbles_and_F00F _ _ _ _).trans rfl
theorem shrReg (x : Nibble) (y : Nibble) : Statement (.shrReg x y) := (wordOfNibbles_and_F00F _ _ _ _).trans rfl
theorem subnReg (x : Nibble) (y : Nibble) : Statement (.subnReg x y) := (wordOfNibbles_and_F00F _ _ _ _).trans rfl
theorem shlReg (x : Nibble) (y : Nibble) : Statement (.shlReg x y) := (wordOfNibbles_and_F00F _ _ _ _).trans rfl
theorem sneReg (x : Nibble) (y : Nibble) (ign : Nibble) : Statement (.sneReg x y ign) := (wordOfNibbles_and_F000 _ _ _ _).trans rfl
theorem ldI (nnn : Imm12) : Statement (.ldI nnn) := (wordOfImm12_and_F000 _ _).trans rfl
theorem jpV0 (nnn : Imm12) : Statement (.jpV0 nnn) := (wordOfImm12_and_F000 _ _).trans rfl
theorem rnd (x : Nibble) (nn : Byte) : Statement (.rnd x nn) := (wordOfByte_and_F000 _ _ _).trans rfl
theorem drw (x : Nibble) (y : Nibble) (n : Nibble) : Statement (.drw x y n) := (wordOfNibbles_and_F000 _ _ _ _).trans rfl
theorem skp (x : Nibble) : Statement (.skp x) := (wordOfByte_and_F0FF _ _ _).trans rfl
theorem sknp (x : Nibble) : Statement (.sknp x) := (wordOfByte_and_F0FF _ _ _).trans rfl
theorem ldVxDt (x : Nibble) : Statement (.ldVxDt x) := (wordOfByte_and_F0FF _ _ _).trans rfl
theorem ldVxKey (x : Nibble) : Statement (.ldVxKey x) := (wordOfByte_and_F0FF _ _ _).trans rfl
theorem ldDtVx (x : Nibble) : Statement (.ldDtVx x) := (wordOfByte_and_F0FF _ _ _).trans rfl
theorem ldStVx (x : Nibble) : Statement (.ldStVx x) := (wordOfByte_and_F0FF _ _ _).trans rfl
theorem addI (x : Nibble) : Statement (.addI x) := (wordOfByte_and_F0FF _ _ _).trans rfl
theorem ldFont (x : Nibble) : Statement (.ldFont x) := (wordOfByte_and_F0FF _ _ _).trans rfl
theorem ldBcd (x : Nibble) : Statement (.ldBcd x) := (wordOfByte_and_F0FF _ _ _).trans rfl
theorem storeRegs (x : Nibble) : Statement (.storeRegs x) := (wordOfByte_and_F0FF _ _ _).trans rfl
theorem loadRegs (x : Nibble) : Statement (.loadRegs x) := (wordOfByte_and_F0FF _ _ _).trans rfl

end Sys2Proof.Laws.RowMatch
end

