-- ==== Sys2Proof/Laws/Step.lean ====
section
/-! SUPPORT. What one step can do, said once. -/

namespace Sys2Proof.Machine

variable {s t : State}

/-- The word at an address is its two bytes, the first the more significant (20_memory.md R42). -/
theorem toNat_wordAt (a : Nat) : (s.wordAt a).toNat = (s.readByte a).toNat * 256 + (s.readByte (a + 1)).toNat := by
  simp only [State.wordAt, wordOfBytes, BitVec.toNat_or, BitVec.toNat_shiftLeft, BitVec.toNat_setWidth]
  have ha := (s.readByte a).isLt
  have hb := (s.readByte (a + 1)).isLt
  rw [Nat.mod_eq_of_lt (show (s.readByte a).toNat < 2 ^ 16 by omega),
    Nat.mod_eq_of_lt (show (s.readByte (a + 1)).toNat < 2 ^ 16 by omega),
    Nat.mod_eq_of_lt (show (s.readByte a).toNat <<< 8 < 2 ^ 16 by rw [Nat.shiftLeft_eq]; omega),
    ← Nat.shiftLeft_add_eq_or_of_lt hb, Nat.shiftLeft_eq]

theorem fetch_eq_some {w : Word} (h : Fetches s w) : s.fetch = some w := by
  have hw : s.wordAt s.pc.toNat = w := BitVec.eq_of_toNat_eq (by rw [toNat_wordAt, h.2])
  have := h.1
  simp only [State.fetch, hw, show ¬ s.pc.toNat ≥ 4095 by omega, if_false]

theorem fetch_eq_none (h : 4095 ≤ s.pc.toNat) : s.fetch = none := by
  simp only [State.fetch, ge_iff_le, h, if_true]

/-- The entry of an engine step does not touch what the fetch reads. -/
theorem fetch_engineEntry : (engineEntry s).fetch = s.fetch := rfl

theorem engineAlone_running (h : s.status = .running) : engineAlone s = engineStep s := by simp [engineAlone, h]

theorem engineAlone_waiting {x : Nibble} (h : s.status = .waitingKey x) : engineAlone s = .next s := by
  simp [engineAlone, h]

theorem engineAlone_faulted (h : s.status = .faulted) : engineAlone s = .fault .engineFaulted := by
  simp [engineAlone, h]

theorem engineAlone_stopped (h : s.status = .stopped) : engineAlone s = .fault .engineStopped := by
  simp [engineAlone, h]

theorem engineTurn_running (h : s.status = .running) : engineTurn s = engineStep s := by simp [engineTurn, h]

theorem engineTurn_idle (h : s.status ≠ .running) : engineTurn s = .next s := by
  cases hs : s.status <;> simp_all [engineTurn]

theorem step_host {e : HostEvent} {rest : List Turn} (h : s.schedule = .host e :: rest) :
    step s = .next (hostEvent e (s.setSchedule rest)) := by simp [step, h]

theorem step_engine {rest : List Turn} (h : s.schedule = .engine :: rest) :
    step s = engineTurn (s.setSchedule rest) := by simp [step, h]

theorem step_alone (h : s.schedule = []) : step s = engineAlone s := by simp [step, h]

theorem setSchedule_of_eq {l : List Turn} (h : s.schedule = l) : s.setSchedule l = s := by subst h; rfl

/-- Where the engine moves, step is its engine step; the turn is off the schedule. -/
theorem step_of_engineMoves (h : EngineMoves s) : step s = engineStep (s.setSchedule s.schedule.tail) := by
  obtain ⟨hr, hs⟩ := h
  match hsch : s.schedule with
  | [] => rw [step_alone hsch, engineAlone_running hr, List.tail_nil, setSchedule_of_eq hsch]
  | .engine :: rest => rw [step_engine hsch, engineTurn_running (by simpa using hr), List.tail_cons]
  | .host e :: rest => exact absurd hsch (hs e rest)

/-- What the step of a running engine can be: a fetch fault, an unknown word, or the decoded instruction. -/
theorem engineStep_cases (s : State) :
    (s.fetch = none ∧ engineStep s = .next (takeFault .fetchOutOfRange none none none (s.setRedraw false))) ∨
    (∃ w, s.fetch = some w ∧ decode w = .unknownInstruction ∧
      engineStep s = .next (takeFault .unknownInstruction (some w) none none (s.setRedraw false))) ∨
    (∃ w i, s.fetch = some w ∧ decode w = .instr i ∧ engineStep s = exec i (s.setRedraw false)) := by
  have hf : (s.setRedraw false).fetch = s.fetch := rfl
  unfold engineStep
  match h : s.fetch with
  | none => left; simp only [hf, h, and_self]
  | some w =>
    right
    match hd : decode w with
    | .unknownInstruction => left; exact ⟨w, rfl, hd, by simp only [hf, h, hd]⟩
    | .instr i => right; exact ⟨w, i, rfl, hd, by simp only [hf, h, hd]⟩

/-- What a step that has a next state can be: a host event, a running engine's step, or a turn without a step. -/
theorem step_cases (h : step s = .next t) :
    (∃ e rest, s.schedule = .host e :: rest ∧ t = hostEvent e (s.setSchedule rest)) ∨
    (EngineMoves s ∧ engineStep (s.setSchedule s.schedule.tail) = .next t) ∨
    (s.status ≠ .running ∧ t = s.setSchedule s.schedule.tail) := by
  match hsch : s.schedule with
  | .host e :: rest =>
    rw [step_host hsch, Host.Outcome.next.injEq] at h
    exact .inl ⟨e, rest, rfl, h.symm⟩
  | .engine :: rest =>
    right
    by_cases hr : s.status = .running
    · have hm : EngineMoves s := ⟨hr, by simp [hsch]⟩
      rw [step_of_engineMoves hm, hsch] at h
      exact .inl ⟨hm, h⟩
    · rw [step_engine hsch, engineTurn_idle (by simpa using hr), Host.Outcome.next.injEq] at h
      exact .inr ⟨hr, h.symm⟩
  | [] =>
    right
    by_cases hr : s.status = .running
    · have hm : EngineMoves s := ⟨hr, by simp [hsch]⟩
      rw [step_of_engineMoves hm, hsch] at h
      exact .inl ⟨hm, h⟩
    · refine .inr ⟨hr, ?_⟩
      rw [List.tail_nil, setSchedule_of_eq hsch]
      rw [step_alone hsch] at h
      cases hs : s.status with
      | running => exact absurd hs hr
      | waitingKey x => rw [engineAlone_waiting hs, Host.Outcome.next.injEq] at h; exact h.symm
      | faulted => rw [engineAlone_faulted hs] at h; cases h
      | stopped => rw [engineAlone_stopped hs] at h; cases h

end Sys2Proof.Machine
end

