-- ==== Sys2Proof/Machine/Assembly.lean ====
section
/-! DEFINITION. The spec's written forms of the 34 instructions: the pattern, which is authoritative, and the assembler
syntax (30_encoding.md R62, 92_eei_decisions.md D22). The machine never asks for either. -/

namespace Sys2Proof

/-- One hex digit. -/
def hexDigit (d : Nibble) : String :=
  match d.toNat with
  | 0 => "0" | 1 => "1" | 2 => "2" | 3 => "3" | 4 => "4" | 5 => "5" | 6 => "6" | 7 => "7"
  | 8 => "8" | 9 => "9" | 10 => "A" | 11 => "B" | 12 => "C" | 13 => "D" | 14 => "E" | _ => "F"

/-- A register, `V0`..`VF`. -/
def regText (x : Nibble) : String := "V" ++ hexDigit x

/-- A 4-bit immediate. Log 32. -/
def nibbleText (n : Nibble) : String := "0x" ++ hexDigit n

/-- An 8-bit immediate. Log 32. -/
def byteText (b : Byte) : String := "0x" ++ hexDigit (b.extractLsb' 4 4) ++ hexDigit (b.extractLsb' 0 4)

/-- A 12-bit immediate. Log 32. -/
def imm12Text (a : Imm12) : String :=
  "0x" ++ hexDigit (a.extractLsb' 8 4) ++ hexDigit (a.extractLsb' 4 4) ++ hexDigit (a.extractLsb' 0 4)

/-- A mnemonic with one operand. -/
def text1 (m a : String) : String := m ++ " " ++ a

/-- A mnemonic with two operands. -/
def text2 (m a b : String) : String := m ++ " " ++ a ++ ", " ++ b

/-- The pattern column of the table of R62. -/
def Instr.pattern : Instr → String
  | .cls _ => "00E0"
  | .ret _ => "00EE"
  | .jp _ => "1NNN"
  | .call _ => "2NNN"
  | .seImm _ _ => "3XNN"
  | .sneImm _ _ => "4XNN"
  | .seReg _ _ _ => "5XY0"
  | .ldImm _ _ => "6XNN"
  | .addImm _ _ => "7XNN"
  | .ldReg _ _ => "8XY0"
  | .orReg _ _ => "8XY1"
  | .andReg _ _ => "8XY2"
  | .xorReg _ _ => "8XY3"
  | .addReg _ _ => "8XY4"
  | .subReg _ _ => "8XY5"
  | .shrReg _ _ => "8XY6"
  | .subnReg _ _ => "8XY7"
  | .shlReg _ _ => "8XYE"
  | .sneReg _ _ _ => "9XY0"
  | .ldI _ => "ANNN"
  | .jpV0 _ => "BNNN"
  | .rnd _ _ => "CXNN"
  | .drw _ _ _ => "DXYN"
  | .skp _ => "EX9E"
  | .sknp _ => "EXA1"
  | .ldVxDt _ => "FX07"
  | .ldVxKey _ => "FX0A"
  | .ldDtVx _ => "FX15"
  | .ldStVx _ => "FX18"
  | .addI _ => "FX1E"
  | .ldFont _ => "FX29"
  | .ldBcd _ => "FX33"
  | .storeRegs _ => "FX55"
  | .loadRegs _ => "FX65"

/-- The syntax column of the table of R62. SHR and SHL write Vy, "encoded but not used"; the bits an assembler sets to 0
(R63) are not written. -/
def Instr.assembly : Instr → String
  | .cls _ => "CLS"
  | .ret _ => "RET"
  | .jp nnn => text1 "JP" (imm12Text nnn)
  | .call nnn => text1 "CALL" (imm12Text nnn)
  | .seImm x nn => text2 "SE" (regText x) (byteText nn)
  | .sneImm x nn => text2 "SNE" (regText x) (byteText nn)
  | .seReg x y _ => text2 "SE" (regText x) (regText y)
  | .ldImm x nn => text2 "LD" (regText x) (byteText nn)
  | .addImm x nn => text2 "ADD" (regText x) (byteText nn)
  | .ldReg x y => text2 "LD" (regText x) (regText y)
  | .orReg x y => text2 "OR" (regText x) (regText y)
  | .andReg x y => text2 "AND" (regText x) (regText y)
  | .xorReg x y => text2 "XOR" (regText x) (regText y)
  | .addReg x y => text2 "ADD" (regText x) (regText y)
  | .subReg x y => text2 "SUB" (regText x) (regText y)
  | .shrReg x y => text2 "SHR" (regText x) (regText y)
  | .subnReg x y => text2 "SUBN" (regText x) (regText y)
  | .shlReg x y => text2 "SHL" (regText x) (regText y)
  | .sneReg x y _ => text2 "SNE" (regText x) (regText y)
  | .ldI nnn => text2 "LD" "I" (imm12Text nnn)
  | .jpV0 nnn => text2 "JP" "V0" (imm12Text nnn)
  | .rnd x nn => text2 "RND" (regText x) (byteText nn)
  | .drw x y n => text2 "DRW" (regText x) (regText y) ++ ", " ++ nibbleText n
  | .skp x => text1 "SKP" (regText x)
  | .sknp x => text1 "SKNP" (regText x)
  | .ldVxDt x => text2 "LD" (regText x) "DT"
  | .ldVxKey x => text2 "LD" (regText x) "K"
  | .ldDtVx x => text2 "LD" "DT" (regText x)
  | .ldStVx x => text2 "LD" "ST" (regText x)
  | .addI x => text2 "ADD" "I" (regText x)
  | .ldFont x => text2 "LD" "F" (regText x)
  | .ldBcd x => text2 "LD" "B" (regText x)
  | .storeRegs x => text2 "LD" "[I]" (regText x)
  | .loadRegs x => text2 "LD" (regText x) "[I]"

end Sys2Proof
end

