-- ==== Sys2Proof/Tests/Slice0.lean ====
section
/-! SUPPORT. Tests: expected values are from 95_test_vectors.md (its vector is named at each test) or worked out by hand
from the rule named. -/

namespace Sys2Proof.Tests

open Sys2Proof.Machine

/-! ## The smoke test of WellFormed: every check refuses an ill-formed term (30_encoding.md R63) -/

theorem test_wellFormed_cls : (Instr.cls 0).wellFormed = true ∧ (Instr.cls 1).wellFormed = false := by decide
theorem test_wellFormed_ret : (Instr.ret 0).wellFormed = true ∧ (Instr.ret 0xF).wellFormed = false := by decide
theorem test_wellFormed_seReg : (Instr.seReg 1 2 0).wellFormed = true ∧ (Instr.seReg 1 2 1).wellFormed = false := by
  decide
theorem test_wellFormed_sneReg : (Instr.sneReg 1 2 0).wellFormed = true ∧ (Instr.sneReg 1 2 0xA).wellFormed = false := by
  decide

/-! ## Decoding, every constructor, words written out from the encodings of 30_encoding.md R57, R58 -/

theorem test_decode_family0 : decode 0b0000000111100000#16 = .instr (.cls 1) ∧
    decode 0b0000111111101110#16 = .instr (.ret 0xF) := by decide
theorem test_decode_imm12 : decode 0b0001101010111100#16 = .instr (.jp 0xABC) ∧
    decode 0b0010110111101010#16 = .instr (.call 0xDEA) ∧ decode 0b1010111111111111#16 = .instr (.ldI 0xFFF) ∧
    decode 0b1011001100000000#16 = .instr (.jpV0 0x300) := by decide
theorem test_decode_imm8 : decode 0b0011001101000010#16 = .instr (.seImm 3 0x42) ∧
    decode 0b0100001111111111#16 = .instr (.sneImm 3 0xFF) ∧ decode 0b0110101000000101#16 = .instr (.ldImm 0xA 5) ∧
    decode 0b0111000011111111#16 = .instr (.addImm 0 0xFF) ∧
    decode 0b1100001100001111#16 = .instr (.rnd 3 0x0F) := by decide
theorem test_decode_registers : decode 0b0101000100101111#16 = .instr (.seReg 1 2 0xF) ∧
    decode 0b1001000100101010#16 = .instr (.sneReg 1 2 0xA) ∧
    decode 0b1101101010110010#16 = .instr (.drw 0xA 0xB 2) := by decide
theorem test_decode_family8 : decode 0b1000000100100000#16 = .instr (.ldReg 1 2) ∧
    decode 0b1000000100100001#16 = .instr (.orReg 1 2) ∧ decode 0b1000000100100010#16 = .instr (.andReg 1 2) ∧
    decode 0b1000000100100011#16 = .instr (.xorReg 1 2) ∧ decode 0b1000000100100100#16 = .instr (.addReg 1 2) ∧
    decode 0b1000000100100101#16 = .instr (.subReg 1 2) ∧ decode 0b1000000100100110#16 = .instr (.shrReg 1 2) ∧
    decode 0b1000000100100111#16 = .instr (.subnReg 1 2) ∧ decode 0b1000000100101110#16 = .instr (.shlReg 1 2) := by
  decide
theorem test_decode_familyE : decode 0b1110010110011110#16 = .instr (.skp 5) ∧
    decode 0b1110010110100001#16 = .instr (.sknp 5) := by decide
theorem test_decode_familyF : decode 0b1111001100000111#16 = .instr (.ldVxDt 3) ∧
    decode 0b1111010100001010#16 = .instr (.ldVxKey 5) ∧ decode 0b1111001100010101#16 = .instr (.ldDtVx 3) ∧
    decode 0b1111010000011000#16 = .instr (.ldStVx 4) ∧ decode 0b1111001000011110#16 = .instr (.addI 2) ∧
    decode 0b1111000000101001#16 = .instr (.ldFont 0) ∧ decode 0b1111010100110011#16 = .instr (.ldBcd 5) ∧
    decode 0b1111001101010101#16 = .instr (.storeRegs 3) ∧ decode 0b1111001001100101#16 = .instr (.loadRegs 2) := by
  decide
/-- Vectors E4 to E7. -/
theorem test_decode_unknown : decode 0x0000#16 = .unknownInstruction ∧ decode 0x00FF#16 = .unknownInstruction ∧
    decode 0x8008#16 = .unknownInstruction ∧ decode 0x800F#16 = .unknownInstruction ∧
    decode 0xE000#16 = .unknownInstruction ∧ decode 0xF0FF#16 = .unknownInstruction := by decide
/-- The first byte is the high one; one byte is no instruction. -/
theorem test_decodeBytes : decodeBytes [0x12, 0x34, 0x56] = .instr (.jp 0x234) [0x56] ∧
    decodeBytes [0x00, 0x01] = .unknownInstruction 0x0001 ∧ decodeBytes [0x12] = .truncated := by decide

/-! ## One step -/

/-- The word w at PC = 0x200, everything else as after reset. -/
def run (w : Word) : State := State.reset.setMem [(0x200, highByte w), (0x201, lowByte w)]

/-- The step's next state has the property. -/
def gives (o : Answer) (p : State → Bool) : Bool :=
  match o with
  | .next t => p t
  | .fault _ => false
  | .refused _ => false

/-- The fault code of a state's record. -/
def faultCode (s : State) : Option FaultCode := s.faultRecord.map (·.code)

/-- Vectors E1, E2: PC = 0xFFE fetches, PC = 0xFFF faults with no word. -/
theorem test_fetch_edge : ((State.reset.setPc 0xFFE).fetch = some 0#16) ∧
    gives (step (State.reset.setPc 0xFFF)) (fun t => t.faultRecord ==
      some ⟨.fetchOutOfRange, 0xFFF, none, 0, none, none⟩) = true := by
  decide
/-- Vector E3. -/
theorem test_fetch_odd : gives (step ((State.reset.setPc 0x201).setMem [(0x201, 0x60), (0x202, 0x07)]))
    (fun t => t.getV 0 == 7 && t.pc == 0x203) = true := by decide
theorem test_withFetchWord : gives (step (State.reset.withFetchWord 16 0x6A42)) (fun t => t.getV 0xA == 0x42 && t.pc == 0x202) = true ∧
    gives (step ((State.reset.setPc 4095).withFetchWord 16 0x6A42)) (fun t => t.getV 0xA == 0x42) = true := by decide
/-- Vector E4. -/
theorem test_unknown : gives (step State.reset) (fun t => t.status == .faulted && t.pc == 0x200 &&
    t.faultRecord == some ⟨.unknownInstruction, 0x200, some 0, 0, none, none⟩)
    = true := by decide
/-- Vector E8. -/
theorem test_cls : gives (step ((run 0x01E0).setFb ((Vector.replicate 32 0).set 5 1)))
    (fun t => t.fb == Vector.replicate 32 0 && t.pc == 0x202 && t.redraw) = true := by decide
/-- Vector F1. -/
theorem test_jp : gives (step (run 0x1ABC)) (fun t => t.pc == 0xABC) = true := by decide
/-- Vector F3. -/
theorem test_call : gives (step ((run 0x2400).setSp 3))
    (fun t => t.sp == 4 && t.getSlot 4 == 0x200 && t.pc == 0x400) = true := by decide
/-- Vector F4. -/
theorem test_call_overflow : gives (step ((run 0x2400).setSp 15))
    (fun t => faultCode t == some .stackOverflow && t.pc == 0x200 && t.sp == 15) = true := by decide
/-- Vectors F6, F7: the slot stays, the ignored bits do not matter. -/
theorem test_ret : gives (step (((run 0x0FEE).setSp 2).setSlot 2 0x250))
    (fun t => t.pc == 0x250 && t.sp == 1 && t.getSlot 2 == 0x250) = true := by decide
/-- Vector F5; the record holds the word as fetched (60_exceptions.md R124). -/
theorem test_ret_underflow : gives (step (run 0x0FEE)) (fun t => t.faultRecord ==
    some ⟨.stackUnderflow, 0x200, some 0x0FEE, 0, none, none⟩) = true := by
  decide
/-- Vector F9. -/
theorem test_jpV0 : gives (step ((run 0xBFFF).setV 0 0xFF)) (fun t => t.pc == 0x10FE) = true := by decide
/-- Vectors K1, K2. -/
theorem test_seImm : gives (step ((run 0x3342).setV 3 0x42)) (fun t => t.pc == 0x204) = true ∧
    gives (step ((run 0x3342).setV 3 0x41)) (fun t => t.pc == 0x202) = true := by decide
/-- Vectors K3, K4. -/
theorem test_sneImm : gives (step ((run 0x4342).setV 3 0x42)) (fun t => t.pc == 0x202) = true ∧
    gives (step (run 0x43FF)) (fun t => t.pc == 0x204) = true := by decide
/-- Vectors K6, E9. -/
theorem test_seReg : gives (step (((run 0x5120).setV 1 1).setV 2 2)) (fun t => t.pc == 0x202) = true ∧
    gives (step (((run 0x512F).setV 1 9).setV 2 9)) (fun t => t.pc == 0x204) = true := by decide
/-- Vectors K7, K8. -/
theorem test_sneReg : gives (step (((run 0x9120).setV 1 1).setV 2 2)) (fun t => t.pc == 0x204) = true ∧
    gives (step (((run 0x912A).setV 1 7).setV 2 7)) (fun t => t.pc == 0x202) = true := by decide
/-- Vectors K9, K10. -/
theorem test_skp : gives (step (((run 0xE49E).setV 4 0xC).setKey 0xC true)) (fun t => t.pc == 0x204) = true ∧
    gives (step ((run 0xE49E).setV 4 0xC)) (fun t => t.pc == 0x202) = true := by decide
/-- Vectors K11, K13. -/
theorem test_sknp : gives (step ((run 0xE4A1).setV 4 0xC)) (fun t => t.pc == 0x204) = true ∧
    gives (step ((run 0xE4A1).setV 4 0xFF)) (fun t => t.faultRecord == some ⟨.keyOutOfRange, 0x200, some 0xE4A1, 0, none, some 0xFF⟩) = true := by decide
/-- Vector A1. -/
theorem test_ldImm : gives (step (run 0x6AFF)) (fun t => t.getV 0xA == 0xFF && t.pc == 0x202) = true := by decide
/-- Vector A2. -/
theorem test_addImm : gives (step (((run 0x7001).setV 0 0xFF).setV 0xF 0x33))
    (fun t => t.getV 0 == 0 && t.getV 0xF == 0x33) = true := by decide
/-- Vector A4. -/
theorem test_ldReg : gives (step (((run 0x8010).setV 1 0x5A).setV 0xF 0x33))
    (fun t => t.getV 0 == 0x5A && t.getV 0xF == 0x33) = true := by decide
/-- Vector A5. -/
theorem test_orReg : gives (step ((((run 0x8011).setV 0 0x0F).setV 1 0xF0).setV 0xF 0x55))
    (fun t => t.getV 0 == 0xFF && t.getV 0xF == 0x55) = true := by decide
/-- Vector A6. -/
theorem test_andReg : gives (step ((((run 0x8012).setV 0 0x3C).setV 1 0x0F).setV 0xF 0x55))
    (fun t => t.getV 0 == 0x0C && t.getV 0xF == 0x55) = true := by decide
/-- Vector A7. -/
theorem test_xorReg : gives (step ((((run 0x8013).setV 0 0xFF).setV 1 0x0F).setV 0xF 0x55))
    (fun t => t.getV 0 == 0xF0 && t.getV 0xF == 0x55) = true := by decide
/-- Vectors A8, A23. -/
theorem test_addReg : gives (step (((run 0x8014).setV 0 0xFF).setV 1 1)) (fun t => t.getV 0 == 0 && t.getV 0xF == 1) = true ∧
    gives (step (((run 0x80F4).setV 0 1).setV 0xF 0xFF)) (fun t => t.getV 0 == 0 && t.getV 0xF == 1) = true := by decide
/-- Vectors A11, A14. -/
theorem test_subReg : gives (step (((run 0x8015).setV 0 3).setV 1 5)) (fun t => t.getV 0 == 0xFE && t.getV 0xF == 0) = true ∧
    gives (step ((run 0x8005).setV 0 7)) (fun t => t.getV 0 == 0 && t.getV 0xF == 1) = true := by decide
/-- Vectors A18, A21. -/
theorem test_shrReg : gives (step (((run 0x8016).setV 0 4).setV 1 0xFF)) (fun t => t.getV 0 == 2 && t.getV 0xF == 0) = true ∧
    gives (step ((run 0x8F06).setV 0xF 0x10)) (fun t => t.getV 0xF == 0) = true := by decide
/-- Vectors A15, A16. -/
theorem test_subnReg : gives (step (((run 0x8017).setV 0 3).setV 1 5)) (fun t => t.getV 0 == 2 && t.getV 0xF == 1) = true ∧
    gives (step (((run 0x8017).setV 0 5).setV 1 3)) (fun t => t.getV 0 == 0xFE && t.getV 0xF == 0) = true := by decide
/-- Vectors A19, A22. -/
theorem test_shlReg : gives (step ((run 0x800E).setV 0 0x81)) (fun t => t.getV 0 == 2 && t.getV 0xF == 1) = true ∧
    gives (step ((run 0x8F0E).setV 0xF 0x81)) (fun t => t.getV 0xF == 1) = true := by decide
/-- Vector A25, for the byte RAND = 0xAB. -/
theorem test_random_byte : (randomInto 0xAB 0 0x0F State.reset).getV 0 = 0x0B := by decide
/-- CXNN uses one random byte and goes on (43_register_alu.md R102). -/
theorem test_rnd : gives (step (run 0xC000)) (fun t => t.draws == 1 && t.pc == 0x202) = true := by decide
/-- Vector M1. -/
theorem test_ldI : gives (step (run 0xAFFF)) (fun t => t.i == 0xFFF && t.pc == 0x202) = true := by decide
/-- Vector M3. -/
theorem test_addI : gives (step (((run 0xF01E).setI 0xFFF).setV 0 0xFF))
    (fun t => t.i == 0x10FE && t.getV 0xF == 0 && t.status == .running) = true := by decide
/-- Vector M6. -/
theorem test_ldFont : gives (step ((run 0xF029).setV 0 0xFF)) (fun t => t.i == 0x4FB) = true := by decide
/-- Vectors M8, M10. -/
theorem test_ldBcd : gives (step (((run 0xF533).setI 0x300).setV 5 0xFF)) (fun t => t.readByte 0x300 == 2 &&
      t.readByte 0x301 == 5 && t.readByte 0x302 == 5 && t.i == 0x300) = true ∧
    gives (step (((run 0xF533).setI 0xFFE).setV 5 7)) (fun t => t.faultRecord == some ⟨.memOutOfRange, 0x200, some 0xF533, 0, some 0x1000, none⟩) = true := by decide
/-- Vector M12. -/
theorem test_storeRegs : gives (step (((((run 0xF355).setI 0x300).setV 0 1).setV 1 2).setV 3 4))
    (fun t => t.readByte 0x300 == 1 && t.readByte 0x301 == 2 && t.readByte 0x302 == 0 && t.readByte 0x303 == 4 &&
      t.i == 0x300) = true := by decide
/-- Vector M18: glyph 0 of the default font. -/
theorem test_loadRegs : gives (step (run 0xF465)) (fun t => t.getV 0 == 0xF0 && t.getV 1 == 0x90 && t.getV 4 == 0xF0 &&
    t.getV 5 == 0) = true := by decide
/-- Vector DS3: wraps past column 63. -/
theorem test_drw_wrap : gives (step (((run 0xD011).setV 0 60).setI 0x50 |>.setMem [(0x50, 0xFF), (0x200, 0xD0), (0x201, 0x11)]))
    (fun t => t.fb[(0 : Fin 32)] == 0xF00000000000000F && t.getV 0xF == 0 && t.redraw) = true := by decide
/-- Vector DS8: a lit pixel is cleared. -/
theorem test_drw_collides : gives (step (((run 0xD011).setI 0x50 |>.setMem [(0x50, 0x40), (0x200, 0xD0), (0x201, 0x11)]).setFb
    ((Vector.replicate 32 0).set 0 0xC000000000000000)))
    (fun t => t.fb[(0 : Fin 32)] == 0x8000000000000000 && t.getV 0xF == 1) = true := by decide
/-- 46_timers_keys.md R116, the rule's example. -/
theorem test_ldVxDt : gives (step ((run 0xF307).setDt 0x3C)) (fun t => t.getV 3 == 0x3C) = true := by decide
/-- Vector T5, the step. -/
theorem test_ldVxKey : gives (step (run 0xF50A)) (fun t => t.status == .waitingKey 5 && t.pc == 0x200) = true := by decide
/-- Vector T1, the first step. -/
theorem test_ldDtVx : gives (step ((run 0xF315).setV 3 0x3C)) (fun t => t.dt == 0x3C) = true := by decide
/-- Vector T3. -/
theorem test_ldStVx : gives (step ((run 0xF418).setV 4 1)) (fun t => t.st == 1 && t.soundOn) = true := by decide

/-! ## Host events -/

/-- The key wait of FF0A at PC = 0x200. -/
def waiting : State := (run 0xFF0A).setStatus (.waitingKey 0xF)

/-- Vector T8. -/
theorem test_press_ends_wait : gives (step (waiting.setSchedule [.host (.keyEvent 0xA true)]))
    (fun t => t.getV 0xF == 0xA && t.getKey 0xA && t.pc == 0x202 && t.status == .running && t.schedule == []) = true := by
  decide
/-- Vector T7. -/
theorem test_stop_in_wait : hostEvent .stopRequest waiting = waiting.setStatus .stopped := by decide
/-- Vector T4, one tick. -/
theorem test_tick : (timerTick ((waiting.setDt 1).setSt 5)).dt = 0 ∧ (timerTick ((waiting.setDt 0).setSt 5)).dt = 0 ∧
    (timerTick ((waiting.setDt 1).setSt 5)).st = 4 := by decide
/-- Program P4's image places its bytes from 0x200 (70_reset_and_hazards.md R141). -/
theorem test_reset_image : (hostEvent (.reset [0x22, 0x06]) (waiting.setStatus .faulted)).readByte 0x201 = 0x06 ∧
    (hostEvent (.reset [0x22, 0x06]) (waiting.setStatus .faulted)).status = .running := by decide
/-- A machine with another FONT (10_state.md R33, 70_reset_and_hazards.md R140). -/
theorem test_reset_font :
    let t := hostEvent (.reset [0x22]) (waiting.setFont (Vector.replicate 80 0xAA))
    t.readByte 0 = 0xAA ∧ t.readByte 79 = 0xAA ∧ t.readByte 80 = 0 ∧ t.readByte 0x200 = 0x22 := by decide

/-- Written forms, from the table of 30_encoding.md R62. -/
theorem test_assembly : (Instr.shrReg 1 2).assembly = "SHR V1, V2" ∧ (Instr.jpV0 0x2AF).assembly = "JP V0, 0x2AF" ∧
    (Instr.drw 0xA 0xB 2).assembly = "DRW VA, VB, 0x2" ∧ (Instr.seImm 3 0x42).assembly = "SE V3, 0x42" ∧
    (Instr.storeRegs 0xF).assembly = "LD [I], VF" ∧ (Instr.shlReg 1 2).pattern = "8XYE" := by decide

/-! ## Witnesses: a concrete state and operands that meet the hypotheses of each statement that has some, clause by
clause, at the edge of its range -/

theorem engineMoves_run (w : Word) : EngineMoves (run w) := ⟨rfl, by intro e rest h; cases h⟩

theorem witness_DecodedWordEncodesBack : decode 0x8014 = .instr (.addReg 0 1) := by decide
theorem witness_StepRunsDecodedInstr : EngineMoves (run 0x00E0) ∧ Fetches (run 0x00E0) 0x00E0 ∧
    decode 0x00E0 = .instr (.cls 0) := ⟨engineMoves_run _, ⟨by decide, by decide⟩, by decide⟩
/-- With the engine's turn scheduled, at the last PC a fetch can use. -/
theorem witness_StepRunsDecodedInstr_edge :
    EngineMoves (((run 0).setPc 4094).setMem [(4094, 0x60), (4095, 0x01)] |>.setSchedule [.engine]) ∧
    Fetches (((run 0).setPc 4094).setMem [(4094, 0x60), (4095, 0x01)] |>.setSchedule [.engine]) 0x6001 ∧
    decode 0x6001 = .instr (.ldImm 0 1) :=
  ⟨⟨rfl, by intro e rest h; cases h⟩, ⟨by decide, by decide⟩, by decide⟩
theorem witness_FetchBeyondMemoryFaults : EngineMoves ((run 0).setPc 4095) ∧ 4095 ≤ ((run 0).setPc 4095).pc.toNat :=
  ⟨⟨rfl, by intro e rest h; cases h⟩, by decide⟩
theorem witness_UnknownWordFaults : EngineMoves (run 0x8008) ∧ Fetches (run 0x8008) 0x8008 ∧
    decode 0x8008 = .unknownInstruction := ⟨engineMoves_run _, ⟨by decide, by decide⟩, by decide⟩
theorem witness_TurnsWithoutEngineStep :
    (waiting.setSchedule [.host .timerTick]).schedule = .host .timerTick :: [] ∧
    (waiting.setSchedule [.engine]).schedule = .engine :: [] ∧ waiting.schedule = [] ∧
    waiting.status = .waitingKey 0xF ∧ waiting.status ≠ .running ∧ (waiting.setStatus .stopped).status ≠ .running := by
  decide
theorem witness_StepStopsOnlyAfterTheRun : ((waiting.setStatus .faulted).setSchedule [.engine]).schedule ≠ [] ∧
    waiting.status ≠ .faulted ∧ waiting.status ≠ .stopped ∧ waiting.schedule = [] ∧
    (waiting.setStatus .faulted).schedule = [] ∧ (waiting.setStatus .faulted).status = .faulted ∧
    (waiting.setStatus .stopped).schedule = [] ∧ (waiting.setStatus .stopped).status = .stopped := by decide
theorem witness_CallPushesOwnAddress : ((run 0x2400).setSp 14).sp.val < 15 := by decide
theorem witness_ReturnResumesAtPoppedAddress : 0 < ((run 0x00EE).setSp 1).sp.val := by decide
theorem witness_StackLimitsFault : ((run 0x2400).setSp 15).sp.val = 15 ∧ (run 0x00EE).sp.val = 0 := by decide
theorem witness_CallThenReturnResumesAtCall : ((run 0x2DEA).setSp 14).sp.val < 15 := by decide
theorem witness_SkipOnKeyState : ((run 0xE49E).setV 4 0xF).getV 4 = zextNibble 0xF := by decide
theorem witness_KeyBeyondKeyboardFaults : 16 ≤ (((run 0xE49E).setV 4 0x10).getV 4).toNat := by decide
theorem witness_OnlySixInstrsWriteFlag :
    (exec (.orReg 0 1) State.reset = .next (State.reset.result 0 0) ∧ writesFlag (.orReg 0 1) = false ∧
      loadsVf (.orReg 0 1) = false) ∧
    (exec (.subReg 0 1) State.reset = .next (State.reset.resultWithFlag 0 0 true) ∧ writesFlag (.subReg 0 1) = true ∧
      (State.reset.resultWithFlag 0 0 true).status ≠ .faulted) :=
  ⟨⟨by rfl, by decide, by decide⟩, ⟨by rfl, by decide, by decide⟩⟩
theorem witness_BcdStoresThreeDigits : ((run 0xF533).setI 0xFFD).mem.wf = true ∧
    ((run 0xF533).setI 0xFFD).i.toNat + 2 < 4096 := by decide
/-- Of StoreRegistersAtIndex, LoadRegistersFromIndex, AdvancingBlockMovesIndexOnly, StoreThenLoadRestoresRegisters. -/
theorem witness_blockOfSixteen : ((run 0xFF55).setI 0xFF0).mem.wf = true ∧
    ((run 0xFF55).setI 0xFF0).i.toNat + (0xF : Nibble).toNat < 4096 := by decide
theorem witness_BlockBeyondMemoryFaults : 4096 ≤ (State.reset.setI 0xFFE).i.toNat + 2 ∧
    4096 ≤ (State.reset.setI 0xFF1).i.toNat + (0xF : Nibble).toNat ∧
    0 < (2 : Nibble).toNat ∧ 4096 < (State.reset.setI 0xFFF).i.toNat + (2 : Nibble).toNat := by decide
/-- FX55 over both bytes of the next word, FX33 over its second byte only, FX55 over its own bytes. -/
theorem witness_StoreIsSeenByNextFetch :
    let s := ((run 0xF155).setI 0x202).setV 1 0xE0
    let b := ((run 0xF133).setI 0x203).setV 1 0xFF
    let o := ((run 0xF155).setI 0x200).setV 1 0xE0
    s.mem.wf = true ∧ s.i.toNat + 1 < 4096 ∧ b.mem.wf = true ∧ b.i.toNat + 2 < 4096 ∧ o.mem.wf = true ∧
    (0x00E0 : Word).toNat = (byteAfterStore s 2 (fun j => s.getV (BitVec.ofNat 4 j)) 0x202).toNat * 256 +
      (byteAfterStore s 2 (fun j => s.getV (BitVec.ofNat 4 j)) 0x203).toNat ∧
    (0x0002 : Word).toNat =
      (byteAfterStore b 3 (fun j => BitVec.ofNat 8 ((b.getV 1).toNat / 10 ^ (2 - j) % 10)) 0x202).toNat * 256 +
      (byteAfterStore b 3 (fun j => BitVec.ofNat 8 ((b.getV 1).toNat / 10 ^ (2 - j) % 10)) 0x203).toNat ∧
    (0x00E0 : Word).toNat = (byteAfterStore o 2 (fun j => o.getV (BitVec.ofNat 4 j)) 0x200).toNat * 256 +
      (byteAfterStore o 2 (fun j => o.getV (BitVec.ofNat 4 j)) 0x201).toNat := by decide
theorem witness_OnlyStoresChangeMemory : exec (.ldI 5) State.reset = .next (State.reset.setI 5).advance ∧
    storesBytes (.ldI 5) = false ∧ ∀ image, HostEvent.timerTick ≠ .reset image :=
  ⟨by rfl, by decide, by intro image h; cases h⟩
theorem witness_CanonicalMemoriesAreEqual : Memory.wf [(0x200, 1)] = true ∧
    ∀ a, a < 4096 → Memory.read [(0x200, 1)] a = Memory.read (Memory.write [] 0x200 1) a :=
  ⟨by decide, fun _ _ => rfl⟩
theorem witness_SpriteBitLandsOnColumn : (7 : Nat) < 8 ∧ (63 : Nat) < 64 ∧
    ∀ k, k < 8 → ((0 : Byte).toNat + k) % 64 ≠ 63 := by decide
theorem witness_DrawXorsEveryPixel : (List.replicate 15 (0xFF : Byte)).length ≤ 15 ∧ (63 : Nat) < 64 := by decide
theorem witness_DrawInstrXorsSpriteAtIndex : (0 : Nibble).toNat = 0 ∧
    (State.reset.setI 0xFFF).i.toNat + (1 : Nibble).toNat ≤ 4096 := by decide
theorem witness_DrawTwiceRestoresFramebuffer : ([0x80] : List Byte).length ≤ 15 := by decide
theorem witness_OnlyClearAndDrawTouchDisplay : exec (.jp 5) State.reset = .next (State.reset.setPc 5) ∧
    touchesDisplay (.jp 5) = false ∧ ∀ image, HostEvent.stopRequest ≠ .reset image :=
  ⟨by rfl, by decide, by intro image h; cases h⟩
theorem witness_PressEndsKeyWait : waiting.status = .waitingKey 0xF ∧ waiting.getKey 0 = false := by decide
theorem witness_OtherEventsKeepWaiting : (waiting.setKey 3 true).status = .waitingKey 0xF ∧
    (waiting.setKey 3 true).getKey 3 = true := by decide
theorem witness_KeyEventSetsItsFlag : ∀ x, (State.reset.setStatus .faulted).status ≠ .waitingKey x := by
  intro x h; cases h
theorem witness_TickCountsBothTimersDown : waiting.status ≠ .faulted ∧ waiting.status ≠ .stopped := by decide
theorem witness_StopRequestEndsRun : (State.reset.status ≠ .faulted ∧ State.reset.status ≠ .stopped) ∧
    (State.reset.setStatus .stopped).status = .stopped := by decide
theorem witness_FaultingInstrChangesNothingElse : State.reset.status = .running ∧
    exec (.ret 0) State.reset = .next (takeFault .stackUnderflow (some 0x00EE) none none State.reset) ∧
    (takeFault .stackUnderflow (some 0x00EE) none none State.reset).status = .faulted :=
  ⟨by decide, by rfl, by decide⟩
theorem witness_FaultIsFinalUntilReset :
    step ((waiting.setStatus .faulted).setSchedule [.engine]) = .next (waiting.setStatus .faulted) ∧
    step ((waiting.setStatus .stopped).setSchedule [.engine]) = .next (waiting.setStatus .stopped) ∧
    ∀ image rest, [Turn.engine] ≠ .host (.reset image) :: rest :=
  ⟨by rfl, by rfl, by intro image rest h; cases h⟩
/-- The first clause with a skip taken, the second with a suspension. -/
theorem witness_PcMovesByTwoOrFour : State.reset.status = .running ∧
    exec (.seImm 0 0) State.reset = .next (State.reset.setPc 0x204) ∧ isControl (.seImm 0 0) = false ∧
    exec (.ldVxKey 0) State.reset = .next (State.reset.setStatus (.waitingKey 0)) ∧ isControl (.ldVxKey 0) = false :=
  ⟨by decide, by rfl, by decide, by rfl, by decide⟩
theorem witness_ResetPlacesImage : (List.replicate 3584 (0 : Byte)).length ≤ 3584 ∧
    3584 < (List.replicate 3585 (0 : Byte)).length ∧ 3583 < (List.replicate 3584 (0 : Byte)).length := by
  simp only [List.length_replicate]; omega

/-- A state with one call outstanding, waiting for a key. -/
def inCall : State := (((run 0xF10A).setSp 1).setSlot 1 0x1FE).setStatus (.waitingKey 1)

theorem witness_StepKeepsInvariant : BlockInv inCall ∧ step inCall = .next inCall := by
  refine ⟨⟨by decide, by decide, by decide, by decide, ?_, by decide, ?_, by decide⟩, by rfl⟩
  · intro x _; decide
  · intro x _; decide

end Sys2Proof.Tests
end

section
/-! SUPPORT. Which meanings neither write nor read the framebuffer (10_state.md R28). -/

namespace Sys2Proof.Machine

/-- From s the meaning m answers a next state with s's framebuffer, and with any other framebuffer in place it answers
the same state with that framebuffer: the framebuffer is neither written nor read. -/
def IgnoresFb (m : State → Answer) (s : State) : Prop :=
  ∃ t, m s = .next t ∧ t.fb = s.fb ∧ ∀ f, m (s.setFb f) = .next (t.setFb f)

variable (s : State)

/-! ## The meanings with two outcomes: which one it is does not depend on the framebuffer -/

theorem execRet_ignoresFb (ign : Nibble) : IgnoresFb (execRet ign) s := by
  by_cases h : s.sp.val = 0
  · exact ⟨_, execRet_fault ign h, rfl, fun f => execRet_fault (s := s.setFb f) ign h⟩
  · have hpos : 0 < s.sp.val := Nat.pos_of_ne_zero h
    exact ⟨_, execRet_next ign hpos, rfl, fun f => execRet_next (s := s.setFb f) ign hpos⟩

theorem execCall_ignoresFb (nnn : Imm12) : IgnoresFb (execCall nnn) s := by
  by_cases h : s.sp.val < 15
  · exact ⟨_, execCall_next nnn h, rfl, fun f => execCall_next (s := s.setFb f) nnn h⟩
  · have hfull : s.sp.val = 15 := by have := s.sp.isLt; omega
    exact ⟨_, execCall_fault nnn hfull, rfl, fun f => execCall_fault (s := s.setFb f) nnn hfull⟩

theorem skipOnKey_ignoresFb (wanted : Bool) (x : Nibble) (w : Word) : IgnoresFb (skipOnKey wanted x w) s := by
  rcases Nat.lt_or_ge (s.getV x).toNat 16 with h | h
  · exact ⟨_, skipOnKey_next wanted x w h, rfl, fun f => skipOnKey_next (s := s.setFb f) wanted x w h⟩
  · exact ⟨_, skipOnKey_fault wanted x w h, rfl, fun f => skipOnKey_fault (s := s.setFb f) wanted x w h⟩

theorem execLdBcd_ignoresFb (x : Nibble) : IgnoresFb (execLdBcd x) s := by
  rcases le_or_gt (s.i.toNat + 3) Config.memSize with h | h
  · exact ⟨_, execLdBcd_next x h, rfl, fun f => execLdBcd_next (s := s.setFb f) x h⟩
  · exact ⟨_, execLdBcd_fault x h, rfl, fun f => execLdBcd_fault (s := s.setFb f) x h⟩

@[simp] theorem advanceIndex_fb (advances : Bool) (x : Nibble) : (s.advanceIndex advances x).fb = s.fb := by
  cases advances <;> rfl

theorem storeRegisters_ignoresFb (advances : Bool) (x : Nibble) : IgnoresFb (storeRegisters advances x) s := by
  rcases le_or_gt (s.i.toNat + (x.toNat + 1)) Config.memSize with h | h
  · refine ⟨_, storeRegisters_next advances x h, by simp, fun f => ?_⟩
    rw [storeRegisters_next (s := s.setFb f) advances x h]
    cases advances <;> rfl
  · exact ⟨_, storeRegisters_fault advances x h, rfl, fun f => storeRegisters_fault (s := s.setFb f) advances x h⟩

@[simp] theorem loadRegsFrom_fb (x : Nibble) (bs : List Byte) : (s.loadRegsFrom x bs).fb = s.fb := by
  rw [loadRegsFrom_frame]

theorem loadRegsFrom_setFb (x : Nibble) (bs : List Byte) (f : Vector Row 32) :
    (s.setFb f).loadRegsFrom x bs = (s.loadRegsFrom x bs).setFb f := by
  induction bs generalizing s x with
  | nil => rfl
  | cons b rest ih => exact ih (s.setV x b) (x + 1)

theorem loadRegisters_ignoresFb (advances : Bool) (x : Nibble) : IgnoresFb (loadRegisters advances x) s := by
  rcases le_or_gt (s.i.toNat + (x.toNat + 1)) Config.memSize with h | h
  · refine ⟨_, loadRegisters_next advances x h, by simp, fun f => ?_⟩
    rw [loadRegisters_next (s := s.setFb f) advances x h, loadRegsFrom_setFb]
    cases advances <;> rfl
  · exact ⟨_, loadRegisters_fault advances x h, rfl, fun f => loadRegisters_fault (s := s.setFb f) advances x h⟩

/-! ## Every instruction and every host event -/

/-- Besides the meanings above, each instruction but 00E0 and DXYN has one outcome, made of updates of other fields. -/
theorem exec_ignoresFb (i : Instr) (h : touchesDisplay i = false) : IgnoresFb (exec i) s := by
  cases i with
  | cls | drw => exact absurd h (by simp [touchesDisplay])
  | ret ign => exact execRet_ignoresFb s ign
  | call nnn => exact execCall_ignoresFb s nnn
  | skp x => exact skipOnKey_ignoresFb s true x _
  | sknp x => exact skipOnKey_ignoresFb s false x _
  | ldBcd x => exact execLdBcd_ignoresFb s x
  | storeRegs x => exact storeRegisters_ignoresFb s _ x
  | loadRegs x => exact loadRegisters_ignoresFb s _ x
  | _ => exact ⟨_, rfl, rfl, fun _ => rfl⟩

theorem keyEvent_fb (k : Nibble) (p : Bool) : (keyEvent k p s).fb = s.fb := by
  by_cases h : ∃ x, s.status = .waitingKey x
  · obtain ⟨x, hx⟩ := h
    rw [keyEvent_waiting k p hx]
    split <;> rfl
  · rw [keyEvent_notWaiting k p (not_exists.mp h), setKey_fb]

theorem timerTick_fb : (timerTick s).fb = s.fb := by
  cases h : s.status.final with
  | false => rw [timerTick_goesOn h, setSt_fb, setDt_fb]
  | true => rw [timerTick_final h]

theorem stopRequest_fb : (stopRequest s).fb = s.fb := by
  cases h : s.status.final with
  | false => rw [stopRequest_goesOn h, setStatus_fb]
  | true => rw [stopRequest_final h]

theorem hostEvent_fb (e : HostEvent) (h : ∀ image, e ≠ .reset image) : (hostEvent e s).fb = s.fb := by
  cases e with
  | reset image => exact absurd rfl (h image)
  | keyEvent k p => exact keyEvent_fb s k p
  | timerTick => exact timerTick_fb s
  | stopRequest => exact stopRequest_fb s

/-- Settles O46: the state an instruction answers is the one `exec_ignoresFb` speaks of. -/
theorem onlyClearAndDrawTouchDisplay : Obligations.OnlyClearAndDrawTouchDisplay := by
  refine ⟨fun i s t hexec hi => ?_, fun e s he => hostEvent_fb s e he⟩
  obtain ⟨u, hu, hfb, hany⟩ := exec_ignoresFb s i hi
  have htu : t = u := Host.Outcome.next.inj (hexec.symm.trans hu)
  subst htu
  exact ⟨hfb, hany⟩

end Sys2Proof.Machine
end

section
/-! SUPPORT. Decoding of the families E and F, and the timer instructions (46_timers_keys.md R116, R118, R119). -/

namespace Sys2Proof.Machine

/-! ## The rows with mask F0FF in the families E and F -/

@[simp] theorem fieldF_and_F0FF (w : Word) : fieldF (w &&& 0xF0FF#16) = fieldF w := by
  rw [← wordOfByte_fields w, wordOfByte_and_F0FF, fieldF_wordOfByte, fieldF_wordOfByte]

/-- In the families E and F the key keeps the family and the low byte (30_encoding.md R56). -/
theorem key_familyEF {w : Word} (h : fieldF w = 0xE#4 ∨ fieldF w = 0xF#4) : key w = w &&& 0xF0FF#16 := by
  rcases h with h | h <;> simp [key, h]

/-- A row of the families E and F selects its instruction by mask F0FF and match p (30_encoding.md R58). -/
theorem decodesAs_familyEF {p : Word} {mk : Word → Instr} (hp : fieldF p = 0xE#4 ∨ fieldF p = 0xF#4)
    (hrow : ∀ w, dispatchMap p w = .instr (mk w)) : DecodesAs 0xF0FF p mk := by
  intro w hw
  have hkey : key w = p := by
    rw [← hw] at hp ⊢
    exact key_familyEF (by simpa using hp)
  rw [decode, hkey, hrow]

/-! ## The timers -/

theorem soundOn_iff (s : State) : s.soundOn = true ↔ s.st ≠ 0 := bne_iff_ne

/-- A result without a flag changes its register and PC only (43_register_alu.md R89). -/
theorem result_onlyRegsPc (s : State) (x : Nibble) (b : Byte) : OnlyRegsPc [x] s (s.result x b) := by
  refine ⟨rfl, fun y hy => ?_, fun _ => rfl⟩
  rw [getV_result, if_neg (by simpa using hy)]

theorem exec_ldDtVx (x : Nibble) (s : State) : exec (.ldDtVx x) s = .next (s.setDt (s.getV x)).advance := rfl

theorem exec_ldStVx (x : Nibble) (s : State) : exec (.ldStVx x) s = .next (s.setSt (s.getV x)).advance := rfl

theorem exec_ldVxDt (x : Nibble) (s : State) : exec (.ldVxDt x) s = .next (s.result x s.dt) := rfl

/-- Settles O47: the three rows are of family F, and each effect is read off its equation. -/
theorem timerRegistersMove : Obligations.TimerRegistersMove := by
  refine ⟨decodesAs_familyEF (by decide) dispatchMap_ldVxDt, decodesAs_familyEF (by decide) dispatchMap_ldDtVx,
    decodesAs_familyEF (by decide) dispatchMap_ldStVx, soundOn_iff, fun x s => ⟨?_, ?_, ?_⟩⟩
  · exact ⟨_, exec_ldDtVx x s, rfl, rfl, rfl, fun _ => rfl⟩
  · exact ⟨_, exec_ldStVx x s, rfl, soundOn_iff _, rfl, rfl, fun _ => rfl⟩
  · exact ⟨_, exec_ldVxDt x s, by rw [getV_result, if_pos rfl], rfl, result_onlyRegsPc s x s.dt⟩

end Sys2Proof.Machine
end

section
/-! SUPPORT. Decoding of the families with mask F000, and the jump (41_control_flow.md R80). -/

namespace Sys2Proof.Machine

/-! ## The rows with mask F000 -/

@[simp] theorem fieldF_and_F000 (w : Word) : fieldF (w &&& 0xF000#16) = fieldF w := by
  rw [← wordOfImm12_fields w, wordOfImm12_and_F000, fieldF_wordOfImm12, fieldF_wordOfImm12]

/-- Outside the families 0, 8, E and F the key is the family alone (30_encoding.md R56). -/
theorem key_otherFamily {w : Word} (h : fieldF w ∉ [0x0#4, 0x8#4, 0xE#4, 0xF#4]) : key w = w &&& 0xF000#16 := by
  obtain ⟨h0, h8, hE, hF⟩ : fieldF w ≠ 0x0#4 ∧ fieldF w ≠ 0x8#4 ∧ fieldF w ≠ 0xE#4 ∧ fieldF w ≠ 0xF#4 := by
    simpa using h
  rw [key, if_neg h0, if_neg h8, if_neg (not_or.mpr ⟨hE, hF⟩)]

/-- A row of those families selects its instruction by mask F000 and match p (30_encoding.md R58). -/
theorem decodesAs_otherFamily {p : Word} {mk : Word → Instr} (hp : fieldF p ∉ [0x0#4, 0x8#4, 0xE#4, 0xF#4])
    (hrow : ∀ w, dispatchMap p w = .instr (mk w)) : DecodesAs 0xF000 p mk := by
  intro w hw
  have hfamily : fieldF p = fieldF w := by rw [← hw]; exact fieldF_and_F000 w
  have hkey : key w = p := (key_otherFamily (hfamily ▸ hp)).trans hw
  rw [decode, hkey, hrow]

/-! ## The jump -/

@[simp] theorem zextImm12_toNat (nnn : Imm12) : (zextImm12 nnn).toNat = nnn.toNat :=
  BitVec.toNat_setWidth_of_le (by decide)

theorem setPc_onlyPc (s : State) (a : Word) : OnlyPc s (s.setPc a) := ⟨rfl, readByte_setPc s a⟩

theorem exec_jp (nnn : Imm12) (s : State) : exec (.jp nnn) s = .next (s.setPc (zextImm12 nnn)) := rfl

/-- Settles O12: the row is of family 1, and the jump's one update sets PC to NNN extended with zeros. -/
theorem jumpSetsPc : Obligations.JumpSetsPc :=
  ⟨decodesAs_otherFamily (by decide) dispatchMap_jp, fun nnn s =>
    ⟨_, exec_jp nnn s, zextImm12_toNat nnn, setPc_onlyPc s (zextImm12 nnn)⟩⟩

end Sys2Proof.Machine
end

section
/-! SUPPORT. The skips (42_skips.md). -/

namespace Sys2Proof.Machine

/-! ## The skip on a condition -/

theorem skipIf_onlyPc (s : State) (c : Bool) : OnlyPc s (s.skipIf c) := setPc_onlyPc s _

/-- An outcome that is the skip on c moves PC by 4 where c's proposition holds, by 2 where not, and changes nothing
else (42_skips.md, the skip class). -/
theorem skip_of_iff {s : State} {c : Bool} {p : Prop} [Decidable p] {a : Answer} (ha : a = .next (s.skipIf c))
    (hc : c = true ↔ p) : ∃ t, a = .next t ∧ t.pc = s.pc + (if p then 4 else 2) ∧ OnlyPc s t := by
  refine ⟨_, ha, ?_, skipIf_onlyPc s c⟩
  rw [skipIf_pc, if_congr hc rfl rfl]

/-! ## 3XNN and 4XNN -/

theorem exec_seImm (x : Nibble) (nn : Byte) (s : State) :
    exec (.seImm x nn) s = .next (s.skipIf (s.getV x == nn)) := rfl

theorem exec_sneImm (x : Nibble) (nn : Byte) (s : State) :
    exec (.sneImm x nn) s = .next (s.skipIf (s.getV x != nn)) := rfl

/-- Settles O18: the rows are of the families 3 and 4, and each meaning is the skip on its comparison. -/
theorem skipOnImmediate : Obligations.SkipOnImmediate :=
  ⟨decodesAs_otherFamily (by decide) dispatchMap_seImm, decodesAs_otherFamily (by decide) dispatchMap_sneImm,
    fun x nn s => ⟨skip_of_iff (exec_seImm x nn s) beq_iff_eq, skip_of_iff (exec_sneImm x nn s) bne_iff_ne⟩⟩

end Sys2Proof.Machine
end

section
/-! SUPPORT. The register ALU: immediates, addition and subtraction (43_register_alu.md R90 to R92, R97, R98, R100). -/

namespace Sys2Proof.Machine

/-! ## The rows of family 8 -/

@[simp] theorem fieldF_and_F00F (w : Word) : fieldF (w &&& 0xF00F#16) = fieldF w := by
  rw [← wordOfNibbles_fields w, wordOfNibbles_and_F00F, fieldF_wordOfNibbles, fieldF_wordOfNibbles]

/-- In family 8 the key keeps the family and the low nibble (30_encoding.md R56). -/
theorem key_family8 {w : Word} (h : fieldF w = 0x8#4) : key w = w &&& 0xF00F#16 := by simp [key, h]

/-- A row of family 8 selects its instruction by mask F00F and match p (30_encoding.md R58). -/
theorem decodesAs_family8 {p : Word} {mk : Word → Instr} (hp : fieldF p = 0x8#4)
    (hrow : ∀ w, dispatchMap p w = .instr (mk w)) : DecodesAs 0xF00F p mk := by
  intro w hw
  have hfamily : fieldF p = fieldF w := by rw [← hw]; exact fieldF_and_F00F w
  have hkey : key w = p := (key_family8 (hfamily ▸ hp)).trans hw
  rw [decode, hkey, hrow]

/-! ## Results, with and without a flag -/

theorem getV_result_same (s : State) (x : Nibble) (b : Byte) : (s.result x b).getV x = b := by
  rw [getV_result, if_pos rfl]

theorem getV_resultWithFlag_dest (s : State) {x : Nibble} (b : Byte) (c : Bool) (hx : x ≠ vf) :
    (s.resultWithFlag x b c).getV x = b := by
  rw [getV_resultWithFlag, if_neg hx, if_pos rfl]

theorem getV_resultWithFlag_vf (s : State) (x : Nibble) (b : Byte) (c : Bool) :
    (s.resultWithFlag x b c).getV vf = flagByte c := by
  rw [getV_resultWithFlag, if_pos rfl]

/-- A result with a flag changes its register, VF and PC only (43_register_alu.md R89). -/
theorem resultWithFlag_onlyRegsPc (s : State) (x : Nibble) (b : Byte) (c : Bool) :
    OnlyRegsPc [x, vf] s (s.resultWithFlag x b c) := by
  refine ⟨rfl, fun y hy => ?_, fun _ => rfl⟩
  obtain ⟨hx, hvf⟩ : y ≠ x ∧ y ≠ vf := by simpa using hy
  rw [getV_resultWithFlag, if_neg hvf, if_neg hx]

/-- An outcome that is a result with a flag: the register holds a byte with b's property unless it is VF, and VF holds 1
exactly where c's proposition holds (10_state.md R16, R17). -/
theorem resultWithFlag_of_iff {s : State} {x : Nibble} {b : Byte} {c : Bool} {a : Answer} {value : Byte → Prop}
    {p : Prop} [Decidable p] (ha : a = .next (s.resultWithFlag x b c)) (hb : value b) (hc : c = true ↔ p) :
    ∃ t, a = .next t ∧ (x ≠ vf → value (t.getV x)) ∧ t.getV vf = (if p then 1 else 0) ∧
      t.pc = s.pc + 2 ∧ OnlyRegsPc [x, vf] s t := by
  refine ⟨_, ha, fun hx => ?_, ?_, rfl, resultWithFlag_onlyRegsPc s x b c⟩
  · rwa [getV_resultWithFlag_dest s b c hx]
  · rw [getV_resultWithFlag_vf, flagByte, if_congr hc rfl rfl]

/-! ## The flags and the difference of two bytes -/

theorem carryOut_iff (a b : Byte) : carryOut a b = true ↔ 256 ≤ a.toNat + b.toNat := decide_eq_true_iff

theorem noBorrow_iff (m s : Byte) : noBorrow m s = true ↔ s.toNat ≤ m.toNat := decide_eq_true_iff

theorem toNat_sub_emod (m s : Byte) : ((m - s).toNat : Int) = ((m.toNat : Int) - s.toNat) % 256 := by
  rw [BitVec.toNat_sub]
  omega

/-! ## 6XNN and 7XNN -/

theorem exec_ldImm (x : Nibble) (nn : Byte) (s : State) : exec (.ldImm x nn) s = .next (s.result x nn) := rfl

theorem exec_addImm (x : Nibble) (nn : Byte) (s : State) :
    exec (.addImm x nn) s = .next (s.result x (s.getV x + nn)) := rfl

/-- Settles O22: the rows are of the families 6 and 7, and each result is written to VX alone. -/
theorem loadAndAddImmediate : Obligations.LoadAndAddImmediate := by
  refine ⟨decodesAs_otherFamily (by decide) dispatchMap_ldImm, decodesAs_otherFamily (by decide) dispatchMap_addImm,
    fun x nn s => ⟨?_, ?_⟩⟩
  · exact ⟨_, exec_ldImm x nn s, getV_result_same s x nn, rfl, result_onlyRegsPc s x nn⟩
  · refine ⟨_, exec_addImm x nn s, ?_, rfl, result_onlyRegsPc s x _⟩
    rw [getV_result_same, BitVec.toNat_add]

/-! ## 8XY4, 8XY5 and 8XY7 -/

theorem exec_addReg (x y : Nibble) (s : State) : exec (.addReg x y) s =
    .next (s.resultWithFlag x (s.getV x + s.getV y) (carryOut (s.getV x) (s.getV y))) := rfl

theorem exec_subReg (x y : Nibble) (s : State) : exec (.subReg x y) s =
    .next (s.resultWithFlag x (s.getV x - s.getV y) (noBorrow (s.getV x) (s.getV y))) := rfl

theorem exec_subnReg (x y : Nibble) (s : State) : exec (.subnReg x y) s =
    .next (s.resultWithFlag x (s.getV y - s.getV x) (noBorrow (s.getV y) (s.getV x))) := rfl

/-- Settles O24: the row is of family 8, and the meaning is the sum with its carry as the flag. -/
theorem addWritesCarryLast : Obligations.AddWritesCarryLast :=
  ⟨decodesAs_family8 (by decide) dispatchMap_addReg, fun x y s =>
    resultWithFlag_of_iff (value := fun r => r.toNat = ((s.getV x).toNat + (s.getV y).toNat) % 256)
      (exec_addReg x y s) (BitVec.toNat_add _ _) (carryOut_iff _ _)⟩

/-- Settles O25: the rows are of family 8, and each meaning is the difference with its no-borrow as the flag, the minuend
VX in 8XY5 and VY in 8XY7. -/
theorem subtractWritesNoBorrowLast : Obligations.SubtractWritesNoBorrowLast := by
  refine ⟨decodesAs_family8 (by decide) dispatchMap_subReg, decodesAs_family8 (by decide) dispatchMap_subnReg,
    fun x y s => ⟨?_, ?_⟩⟩
  · exact resultWithFlag_of_iff (value := fun r => (r.toNat : Int) = ((s.getV x).toNat - (s.getV y).toNat) % 256)
      (exec_subReg x y s) (toNat_sub_emod _ _) (noBorrow_iff _ _)
  · exact resultWithFlag_of_iff (value := fun r => (r.toNat : Int) = ((s.getV y).toNat - (s.getV x).toNat) % 256)
      (exec_subnReg x y s) (toNat_sub_emod _ _) (noBorrow_iff _ _)

end Sys2Proof.Machine
end

section
/-! SUPPORT. The index register (44_index_memory.md R104). -/

namespace Sys2Proof.Machine

/-! ## ANNN -/

/-- Setting I and moving on changes I and PC only. -/
theorem setI_advance_onlyIndexPc (s : State) (a : Word) : OnlyIndexPc s (s.setI a).advance := by
  refine ⟨rfl, fun c => ?_⟩
  rw [readByte_advance, readByte_setI]

theorem exec_ldI (nnn : Imm12) (s : State) : exec (.ldI nnn) s = .next (s.setI (zextImm12 nnn)).advance := rfl

/-- Settles O29: the row is of family A, and the load sets I to NNN extended with zeros before PC moves on by 2. -/
theorem loadIndex : Obligations.LoadIndex := by
  refine ⟨decodesAs_otherFamily (by decide) dispatchMap_ldI, fun nnn s =>
    ⟨_, exec_ldI nnn s, ?i, ?pc, setI_advance_onlyIndexPc s (zextImm12 nnn)⟩⟩
  case i => rw [advance_i, setI_i, zextImm12_toNat]
  case pc => rw [advance_pc, setI_pc]

end Sys2Proof.Machine
end

section
/-! SUPPORT. Decoding and encoding are inverse, row by row of spec/opcode_table.json (30_encoding.md R56 to R59). -/

namespace Sys2Proof.Machine

open Sys2Proof.Laws.RowMatch

/-! ## The masked parts and the key of a word -/

theorem and_F0FF_eq (w : Word) : w &&& 0xF0FF#16 = wordOfByte (fieldF w) 0 (fieldNN w) := by
  rw [← wordOfByte_and_F0FF _ (fieldX w), wordOfByte_fields]

theorem and_F00F_eq (w : Word) : w &&& 0xF00F#16 = wordOfNibbles (fieldF w) 0 0 (fieldN w) := by
  rw [← wordOfNibbles_and_F00F _ (fieldX w) (fieldY w), wordOfNibbles_fields]

theorem and_F000_eq (w : Word) : w &&& 0xF000#16 = wordOfImm12 (fieldF w) 0 := by
  rw [← wordOfImm12_and_F000 _ (fieldNNN w), wordOfImm12_fields]

theorem key_family0 {w : Word} (h : fieldF w = 0x0#4) : key w = wordOfByte 0x0 0x0 (fieldNN w) := by
  rw [key, if_pos h, ← wordOfByte_and_00FF (fieldF w) (fieldX w), wordOfByte_fields]

/-- The key keeps the family (30_encoding.md R56). -/
theorem fieldF_key (w : Word) : fieldF (key w) = fieldF w := by
  by_cases h0 : fieldF w = 0x0#4
  · rw [key_family0 h0, fieldF_wordOfByte, h0]; rfl
  by_cases h8 : fieldF w = 0x8#4
  · rw [key_family8 h8, fieldF_and_F00F]
  by_cases hEF : fieldF w = 0xE#4 ∨ fieldF w = 0xF#4
  · rw [key_familyEF hEF, fieldF_and_F0FF]
  · rw [key_otherFamily (by simpa [h0, h8] using hEF), fieldF_and_F000]

/-- In family 0 the mask F0FF selects what the key's mask 00FF does. -/
theorem key_family0_eq_and {w : Word} (h : fieldF w = 0x0#4) : key w = w &&& 0xF0FF#16 := by
  rw [key_family0 h, and_F0FF_eq, h]; rfl

/-! ## One row: its mask, its match, its instruction -/

/-- The row of i with the operands of w: i's constructor at the fields of w (30_encoding.md R55). -/
def rowInstr (i : Instr) (w : Word) : Instr :=
  match i with
  | .cls _ => .cls (fieldX w)
  | .ret _ => .ret (fieldX w)
  | .jp _ => .jp (fieldNNN w)
  | .call _ => .call (fieldNNN w)
  | .seImm _ _ => .seImm (fieldX w) (fieldNN w)
  | .sneImm _ _ => .sneImm (fieldX w) (fieldNN w)
  | .seReg _ _ _ => .seReg (fieldX w) (fieldY w) (fieldN w)
  | .ldImm _ _ => .ldImm (fieldX w) (fieldNN w)
  | .addImm _ _ => .addImm (fieldX w) (fieldNN w)
  | .ldReg _ _ => .ldReg (fieldX w) (fieldY w)
  | .orReg _ _ => .orReg (fieldX w) (fieldY w)
  | .andReg _ _ => .andReg (fieldX w) (fieldY w)
  | .xorReg _ _ => .xorReg (fieldX w) (fieldY w)
  | .addReg _ _ => .addReg (fieldX w) (fieldY w)
  | .subReg _ _ => .subReg (fieldX w) (fieldY w)
  | .shrReg _ _ => .shrReg (fieldX w) (fieldY w)
  | .subnReg _ _ => .subnReg (fieldX w) (fieldY w)
  | .shlReg _ _ => .shlReg (fieldX w) (fieldY w)
  | .sneReg _ _ _ => .sneReg (fieldX w) (fieldY w) (fieldN w)
  | .ldI _ => .ldI (fieldNNN w)
  | .jpV0 _ => .jpV0 (fieldNNN w)
  | .rnd _ _ => .rnd (fieldX w) (fieldNN w)
  | .drw _ _ _ => .drw (fieldX w) (fieldY w) (fieldN w)
  | .skp _ => .skp (fieldX w)
  | .sknp _ => .sknp (fieldX w)
  | .ldVxDt _ => .ldVxDt (fieldX w)
  | .ldVxKey _ => .ldVxKey (fieldX w)
  | .ldDtVx _ => .ldDtVx (fieldX w)
  | .ldStVx _ => .ldStVx (fieldX w)
  | .addI _ => .addI (fieldX w)
  | .ldFont _ => .ldFont (fieldX w)
  | .ldBcd _ => .ldBcd (fieldX w)
  | .storeRegs _ => .storeRegs (fieldX w)
  | .loadRegs _ => .loadRegs (fieldX w)

/-- The family of i's row. -/
def rowFamily : Instr → Nibble
  | .cls _ | .ret _ => 0x0
  | .jp _ => 0x1
  | .call _ => 0x2
  | .seImm _ _ => 0x3
  | .sneImm _ _ => 0x4
  | .seReg _ _ _ => 0x5
  | .ldImm _ _ => 0x6
  | .addImm _ _ => 0x7
  | .ldReg _ _ | .orReg _ _ | .andReg _ _ | .xorReg _ _ | .addReg _ _ | .subReg _ _ | .shrReg _ _ | .subnReg _ _
  | .shlReg _ _ => 0x8
  | .sneReg _ _ _ => 0x9
  | .ldI _ => 0xA
  | .jpV0 _ => 0xB
  | .rnd _ _ => 0xC
  | .drw _ _ _ => 0xD
  | .skp _ | .sknp _ => 0xE
  | .ldVxDt _ | .ldVxKey _ | .ldDtVx _ | .ldStVx _ | .addI _ | .ldFont _ | .ldBcd _ | .storeRegs _
  | .loadRegs _ => 0xF

theorem fieldF_rowMatch (i : Instr) : fieldF (rowMatch i) = rowFamily i := by
  cases i <;> simp [rowMatch, rowFamily, fieldF]

theorem rowInstr_encode (i : Instr) : rowInstr i (encode i) = i := by cases i <;> simp [rowInstr, encode]

theorem dispatchMap_rowMatch (i : Instr) (w : Word) : dispatchMap (rowMatch i) w = .instr (rowInstr i w) := by
  cases i <;> rfl

/-- The dispatch map answers an instruction only at its row's match, with the operands of the word. -/
theorem eq_of_dispatchMap {k w : Word} {i : Instr} (h : dispatchMap k w = .instr i) :
    k = rowMatch i ∧ i = rowInstr i w := by
  unfold dispatchMap at h
  split at h <;> cases h
  all_goals exact ⟨BitVec.eq_of_toNat_eq ‹_›, rfl⟩

/-- In the family of i's row the key is the word under the row's mask (30_encoding.md R56, R58). -/
theorem key_eq_and_rowMask {i : Instr} {w : Word} (h : fieldF w = rowFamily i) : key w = w &&& rowMask i := by
  cases i with
  | cls | ret => exact key_family0_eq_and h
  | ldReg | orReg | andReg | xorReg | addReg | subReg | shrReg | subnReg | shlReg => exact key_family8 h
  | skp | sknp => exact key_familyEF (.inl h)
  | ldVxDt | ldVxKey | ldDtVx | ldStVx | addI | ldFont | ldBcd | storeRegs | loadRegs => exact key_familyEF (.inr h)
  | _ => exact key_otherFamily (by rw [h]; simp [rowFamily])

theorem fieldF_and_rowMask (i : Instr) (w : Word) : fieldF (w &&& rowMask i) = fieldF w := by
  cases i with
  | ldReg | orReg | andReg | xorReg | addReg | subReg | shrReg | subnReg | shlReg => exact fieldF_and_F00F w
  | cls | ret | skp | sknp | ldVxDt | ldVxKey | ldDtVx | ldStVx | addI | ldFont | ldBcd | storeRegs | loadRegs =>
    exact fieldF_and_F0FF w
  | _ => exact fieldF_and_F000 w

/-- The key of a word is a row's match exactly when the word matches the row under its mask. -/
theorem key_eq_rowMatch_iff (i : Instr) (w : Word) : key w = rowMatch i ↔ w &&& rowMask i = rowMatch i := by
  constructor <;> intro h
  · rw [← key_eq_and_rowMask (by rw [← fieldF_rowMatch, ← h, fieldF_key]), h]
  · rw [key_eq_and_rowMask (by rw [← fieldF_rowMatch, ← h, fieldF_and_rowMask]), h]

/-- Every row selects its instruction by its mask and match (30_encoding.md R58). -/
theorem decodesAs_row (i : Instr) : DecodesAs (rowMask i) (rowMatch i) (rowInstr i) := by
  intro w h
  rw [decode, (key_eq_rowMatch_iff i w).mpr h, dispatchMap_rowMatch]

/-! ## A word that matches a row is its fixed fields and its operands -/

theorem wordOfByte_of_and_F0FF {f : Nibble} {b : Byte} {w : Word} (h : w &&& 0xF0FF#16 = wordOfByte f 0 b) :
    wordOfByte f (fieldX w) b = w := by
  rw [and_F0FF_eq] at h
  have hf : fieldF w = f := by simpa using congrArg fieldF h
  have hb : fieldNN w = b := by simpa using congrArg fieldNN h
  rw [← hf, ← hb, wordOfByte_fields]

theorem wordOfNibbles_of_and_F00F {f n : Nibble} {w : Word} (h : w &&& 0xF00F#16 = wordOfNibbles f 0 0 n) :
    wordOfNibbles f (fieldX w) (fieldY w) n = w := by
  rw [and_F00F_eq] at h
  have hf : fieldF w = f := by simpa using congrArg fieldF h
  have hn : fieldN w = n := by simpa using congrArg fieldN h
  rw [← hf, ← hn, wordOfNibbles_fields]

/-- Encoding the instruction that a row reads from a matching word gives the word back. -/
theorem encode_rowInstr {i : Instr} {w : Word} (h : w &&& rowMask i = rowMatch i) : encode (rowInstr i w) = w := by
  have hf : rowFamily i = fieldF w := by rw [← fieldF_rowMatch, ← h, fieldF_and_rowMask]
  cases i with
  | jp | call | ldI | jpV0 => exact (congrArg (wordOfImm12 · _) hf).trans (wordOfImm12_fields w)
  | seImm | sneImm | ldImm | addImm | rnd => exact (congrArg (wordOfByte · _ _) hf).trans (wordOfByte_fields w)
  | seReg | sneReg | drw => exact (congrArg (wordOfNibbles · _ _ _) hf).trans (wordOfNibbles_fields w)
  | ldReg | orReg | andReg | xorReg | addReg | subReg | shrReg | subnReg | shlReg => exact wordOfNibbles_of_and_F00F h
  | _ => exact wordOfByte_of_and_F0FF h

/-- The encoded word matches its row, for all rows at once. -/
theorem rowMatch_encode (i : Instr) : encode i &&& rowMask i = rowMatch i :=
  match i with
  | .cls ign => cls ign
  | .ret ign => ret ign
  | .jp nnn => jp nnn
  | .call nnn => call nnn
  | .seImm x nn => seImm x nn
  | .sneImm x nn => sneImm x nn
  | .seReg x y ign => seReg x y ign
  | .ldImm x nn => ldImm x nn
  | .addImm x nn => addImm x nn
  | .ldReg x y => ldReg x y
  | .orReg x y => orReg x y
  | .andReg x y => andReg x y
  | .xorReg x y => xorReg x y
  | .addReg x y => addReg x y
  | .subReg x y => subReg x y
  | .shrReg x y => shrReg x y
  | .subnReg x y => subnReg x y
  | .shlReg x y => shlReg x y
  | .sneReg x y ign => sneReg x y ign
  | .ldI nnn => ldI nnn
  | .jpV0 nnn => jpV0 nnn
  | .rnd x nn => rnd x nn
  | .drw x y n => drw x y n
  | .skp x => skp x
  | .sknp x => sknp x
  | .ldVxDt x => ldVxDt x
  | .ldVxKey x => ldVxKey x
  | .ldDtVx x => ldDtVx x
  | .ldStVx x => ldStVx x
  | .addI x => addI x
  | .ldFont x => ldFont x
  | .ldBcd x => ldBcd x
  | .storeRegs x => storeRegs x
  | .loadRegs x => loadRegs x

/-! ## The statements -/

theorem decode_encode (i : Instr) : decode (encode i) = .instr i := by
  rw [decodesAs_row i (encode i) (rowMatch_encode i), rowInstr_encode]

/-- Settles O2: the word matches its row, which reads the operands back; the two bytes make the word. -/
theorem encodedInstrDecodesBack : Obligations.EncodedInstrDecodesBack := by
  refine fun i => ⟨decode_encode i, fun rest => ?_⟩
  simp only [encodeBytes, List.cons_append, List.nil_append, decodeBytes, wordOfBytes_highByte_lowByte, decode_encode]

/-- Settles O3: the decoded word matches the row of its instruction. -/
theorem decodedWordEncodesBack : Obligations.DecodedWordEncodesBack := by
  intro w i h
  obtain ⟨hkey, hi⟩ := eq_of_dispatchMap h
  rw [hi]
  exact encode_rowInstr ((key_eq_rowMatch_iff i w).mp hkey)

/-- Settles O4: `decodesAs_row` at each of the 34 rows; the operands named here play no part. -/
theorem maskAndMatchSelectInstr : Obligations.MaskAndMatchSelectInstr :=
  ⟨decodesAs_row (.cls 0), decodesAs_row (.ret 0), decodesAs_row (.jp 0), decodesAs_row (.call 0),
    decodesAs_row (.seImm 0 0), decodesAs_row (.sneImm 0 0), decodesAs_row (.seReg 0 0 0), decodesAs_row (.ldImm 0 0),
    decodesAs_row (.addImm 0 0), decodesAs_row (.ldReg 0 0), decodesAs_row (.orReg 0 0), decodesAs_row (.andReg 0 0),
    decodesAs_row (.xorReg 0 0), decodesAs_row (.addReg 0 0), decodesAs_row (.subReg 0 0), decodesAs_row (.shrReg 0 0),
    decodesAs_row (.subnReg 0 0), decodesAs_row (.shlReg 0 0), decodesAs_row (.sneReg 0 0 0), decodesAs_row (.ldI 0),
    decodesAs_row (.jpV0 0), decodesAs_row (.rnd 0 0), decodesAs_row (.drw 0 0 0), decodesAs_row (.skp 0),
    decodesAs_row (.sknp 0), decodesAs_row (.ldVxDt 0), decodesAs_row (.ldVxKey 0), decodesAs_row (.ldDtVx 0),
    decodesAs_row (.ldStVx 0), decodesAs_row (.addI 0), decodesAs_row (.ldFont 0), decodesAs_row (.ldBcd 0),
    decodesAs_row (.storeRegs 0), decodesAs_row (.loadRegs 0)⟩

/-! ## The words of no row -/

/-- The match column of spec/opcode_table.json. -/
def rowKeys : List Word :=
  [0x00E0, 0x00EE, 0x1000, 0x2000, 0x3000, 0x4000, 0x5000, 0x6000, 0x7000, 0x8000, 0x8001, 0x8002, 0x8003, 0x8004,
    0x8005, 0x8006, 0x8007, 0x800E, 0x9000, 0xA000, 0xB000, 0xC000, 0xD000, 0xE09E, 0xE0A1, 0xF007, 0xF00A, 0xF015,
    0xF018, 0xF01E, 0xF029, 0xF033, 0xF055, 0xF065]

theorem rowMatch_mem_rowKeys (i : Instr) : rowMatch i ∈ rowKeys := by cases i <;> simp [rowMatch, rowKeys]

theorem dispatchMap_of_mem {k : Word} (w : Word) (h : k ∈ rowKeys) : dispatchMap k w ≠ .unknownInstruction := by
  fin_cases h <;> nofun

/-- A word is unknown exactly when its key is not in the dispatch map (30_encoding.md R59). -/
theorem decode_unknown_iff (w : Word) : decode w = .unknownInstruction ↔ key w ∉ rowKeys := by
  refine ⟨fun h hk => dispatchMap_of_mem w hk h, fun h => ?_⟩
  match hd : decode w with
  | .unknownInstruction => rfl
  | .instr i => exact absurd ((eq_of_dispatchMap hd).1 ▸ rowMatch_mem_rowKeys i) h

theorem wordOfByte_eq_iff {f x : Nibble} {b : Byte} {w : Word} :
    wordOfByte f x b = w ↔ f = fieldF w ∧ x = fieldX w ∧ b = fieldNN w := by
  refine ⟨fun h => by simp [← h], ?_⟩
  rintro ⟨rfl, rfl, rfl⟩
  exact wordOfByte_fields w

/-! The keys of the families 0, E, F and 8 in the map, by the part of the word that the key keeps. -/

theorem familyKey0_mem_iff (b : Byte) : wordOfByte 0x0 0x0 b ∈ rowKeys ↔ b ∈ [0xE0, 0xEE] := by
  simp [rowKeys, wordOfByte_eq_iff, fieldF, fieldX, fieldNN]
theorem familyKeyE_mem_iff (b : Byte) : wordOfByte 0xE#4 0 b ∈ rowKeys ↔ b ∈ [0x9E, 0xA1] := by
  simp [rowKeys, wordOfByte_eq_iff, fieldF, fieldX, fieldNN]
theorem familyKeyF_mem_iff (b : Byte) : wordOfByte 0xF#4 0 b ∈ rowKeys ↔
    b ∈ [0x07, 0x0A, 0x15, 0x18, 0x1E, 0x29, 0x33, 0x55, 0x65] := by
  simp [rowKeys, wordOfByte_eq_iff, fieldF, fieldX, fieldNN]
theorem familyKey8_mem_iff (n : Nibble) :
    wordOfNibbles 0x8#4 0 0 n ∉ rowKeys ↔ n ∈ [0x8, 0x9, 0xA, 0xB, 0xC, 0xD, 0xF] := by revert n; decide
theorem familyKey_mem (f : Nibble) (h : f ∉ [0x0#4, 0x8#4, 0xE#4, 0xF#4]) : wordOfImm12 f 0 ∈ rowKeys := by
  revert f; decide

/-- Settles O5: family by family, which low bytes or low nibbles make a key of the dispatch map. -/
theorem unknownWordsAreTheListed : Obligations.UnknownWordsAreTheListed := by
  intro w
  rw [decode_unknown_iff]
  by_cases h0 : fieldF w = 0x0#4
  · rw [key_family0 h0, familyKey0_mem_iff]
    simp [h0]
  by_cases h8 : fieldF w = 0x8#4
  · rw [key_family8 h8, and_F00F_eq, h8, familyKey8_mem_iff]
    simp
  by_cases hE : fieldF w = 0xE#4
  · rw [key_familyEF (.inl hE), and_F0FF_eq, hE, familyKeyE_mem_iff]
    simp
  by_cases hF : fieldF w = 0xF#4
  · rw [key_familyEF (.inr hF), and_F0FF_eq, hF, familyKeyF_mem_iff]
    simp
  · have hother : fieldF w ∉ [0x0#4, 0x8#4, 0xE#4, 0xF#4] := by simp [h0, h8, hE, hF]
    rw [key_otherFamily hother, and_F000_eq]
    simp only [familyKey_mem _ hother, not_true, false_iff]
    simp [h0, h8, hE, hF]

/-- Settles O1: each word runs through the decoder. -/
theorem sampleWordsDecode : Obligations.SampleWordsDecode := by unfold Obligations.SampleWordsDecode; decide

end Sys2Proof.Machine
end

section
/-! SUPPORT. What executing one instruction can do, said once: fault, suspend, or complete with its class's effects. -/

namespace Sys2Proof.Machine

variable {i : Instr} {s t : State}

/-! ## A completed instruction -/

/-- The instruction i, executed in s, has completed in t: what every completed instruction leaves unchanged, where PC
goes (40_engine_cycle.md R72), what becomes of memory and stack, and who writes VF (10_state.md R16). -/
structure Completed (i : Instr) (s t : State) : Prop where
  frame : t = { s with v := t.v, i := t.i, pc := t.pc, sp := t.sp, stack := t.stack, dt := t.dt, st := t.st, fb := t.fb,
                       mem := t.mem, redraw := t.redraw, draws := t.draws }
  pcMoved : isControl i = false → t.pc = s.pc + 2 ∨ isSkip i = true ∧ t.pc = s.pc + 4
  pcSet : isControl i = true → t.pc.toNat ≤ 0x10FE ∨ t.pc = s.getSlot s.sp
  memKept : storesBytes i = false → t.mem = s.mem
  memCanonical : s.mem.wf = true → t.mem.wf = true
  slots : ∀ j, t.getSlot j = s.getSlot j ∨ j ≠ 0 ∧ t.getSlot j = s.pc
  vfKept : writesFlag i = false → loadsVf i = false → t.getV vf = s.getV vf
  vfFlag : writesFlag i = true → ∃ c, t.getV vf = flagByte c

theorem Completed.status_eq (h : Completed i s t) : t.status = s.status := by rw [h.frame]

theorem Completed.faultRecord_eq (h : Completed i s t) : t.faultRecord = s.faultRecord := by rw [h.frame]

theorem Completed.font_eq (h : Completed i s t) : t.font = s.font := by rw [h.frame]

/-- Completion by the default post-effect, of an instruction that leaves memory and stack alone. -/
theorem completed_advance (hi : isControl i = false)
    (hframe : t = { s with v := t.v, i := t.i, dt := t.dt, st := t.st, fb := t.fb, redraw := t.redraw,
                           draws := t.draws })
    (hkept : writesFlag i = false → loadsVf i = false → t.getV vf = s.getV vf)
    (hflag : writesFlag i = true → ∃ c, t.getV vf = flagByte c) : Completed i s t.advance where
  frame := by rw [hframe]; rfl
  pcMoved _ := .inl (by rw [hframe]; rfl)
  pcSet h := by rw [hi] at h; cases h
  memKept _ := by rw [hframe]; rfl
  memCanonical h := by rw [hframe]; exact h
  slots j := .inl (by rw [hframe]; rfl)
  vfKept := hkept
  vfFlag := hflag

theorem vf_ne_of_beq {x : Nibble} (h : (x == vf) = false) : vf ≠ x := (beq_eq_false_iff_ne.mp h).symm

/-- A result without a flag; VF may be its register only where the instruction's destination can be VF. -/
theorem completed_result {x : Nibble} (b : Byte) (hi : isControl i = false) (hflag : writesFlag i = false)
    (hvf : loadsVf i = (x == vf)) : Completed i s (s.result x b) := by
  refine completed_advance hi rfl (fun _ h => ?_) (fun h => ?_)
  · exact getV_setV_other s b (vf_ne_of_beq (hvf ▸ h))
  · rw [hflag] at h; cases h

theorem completed_randomInto (r : Byte) (x : Nibble) (nn : Byte) : Completed (.rnd x nn) s (randomInto r x nn s) :=
  completed_advance rfl rfl (fun _ hx => getV_setV_other (s.setDraws (s.draws + 1)) _ (vf_ne_of_beq hx)) nofun

/-- DXYN writes the framebuffer, then the collision to VF. -/
theorem completed_drw (x y n : Nibble) (f : Vector Row 32) (c : Bool) :
    Completed (.drw x y n) s (((s.setFb f).setV vf (flagByte c)).setRedraw true).advance :=
  completed_advance rfl rfl nofun fun _ => ⟨c, getV_setV_same (s.setFb f) vf (flagByte c)⟩

/-- A result with a flag. -/
theorem completed_resultWithFlag (x : Nibble) (b : Byte) (c : Bool) (hi : isControl i = false)
    (hflag : writesFlag i = true) : Completed i s (s.resultWithFlag x b c) := by
  refine completed_advance hi rfl (fun h => ?_) (fun _ => ⟨c, getV_setV_same _ _ _⟩)
  rw [hflag] at h; cases h

/-- Completion by the default post-effect, of an instruction that writes no register. -/
theorem completed_noFlag (hi : isControl i = false) (hflag : writesFlag i = false)
    (hframe : t = { s with i := t.i, dt := t.dt, st := t.st, fb := t.fb, redraw := t.redraw }) :
    Completed i s t.advance := by
  refine completed_advance hi (by rw [hframe]) (fun _ _ => ?_) (fun h => ?_)
  · rw [hframe]; rfl
  · rw [hflag] at h; cases h

theorem completed_skipIf (c : Bool) (hi : isControl i = false) (hskip : isSkip i = true)
    (hflag : writesFlag i = false) : Completed i s (s.skipIf c) where
  frame := rfl
  pcMoved _ := by cases c; exacts [.inl rfl, .inr ⟨hskip, rfl⟩]
  pcSet h := by rw [hi] at h; cases h
  memKept _ := rfl
  memCanonical h := h
  slots _ := .inl rfl
  vfKept _ _ := rfl
  vfFlag h := by rw [hflag] at h; cases h

theorem completed_setPc {a : Word} (hi : isControl i = true) (hflag : writesFlag i = false)
    (ha : a.toNat ≤ 0x10FE ∨ a = s.getSlot s.sp) : Completed i s (s.setPc a) where
  frame := rfl
  pcMoved h := by rw [hi] at h; cases h
  pcSet _ := ha
  memKept _ := rfl
  memCanonical h := h
  slots _ := .inl rfl
  vfKept _ _ := rfl
  vfFlag h := by rw [hflag] at h; cases h

theorem completed_store {bs : List Byte} (hi : isControl i = false) (hstore : storesBytes i = true)
    (hflag : writesFlag i = false) (hrange : s.i.toNat + bs.length ≤ Config.memSize) :
    Completed i s (s.setMem (s.mem.writeBytes s.i.toNat bs)).advance where
  frame := rfl
  pcMoved _ := .inl rfl
  pcSet h := by rw [hi] at h; cases h
  memKept h := by rw [hstore] at h; cases h
  memCanonical h := Memory.writeBytes_wf h hrange
  slots _ := .inl rfl
  vfKept _ _ := rfl
  vfFlag h := by rw [hflag] at h; cases h

/-! ## The control class -/

theorem zextImm12_le (nnn : Imm12) : (zextImm12 nnn).toNat ≤ 0x0FFF := by
  have := nnn.isLt
  rw [zextImm12_toNat]; omega

@[simp] theorem zextByte_toNat (b : Byte) : (zextByte b).toNat = b.toNat := BitVec.toNat_setWidth_of_le (by decide)

/-- BNNN's sum is exact: it cannot exceed 0x10FE (10_state.md R21). -/
theorem toNat_jpV0Target (b : Byte) (nnn : Imm12) : (zextByte b + zextImm12 nnn).toNat = b.toNat + nnn.toNat := by
  have hb := b.isLt
  have hn := nnn.isLt
  rw [BitVec.toNat_add, zextByte_toNat, zextImm12_toNat, Nat.mod_eq_of_lt (by omega)]

theorem jpV0Target_le (b : Byte) (nnn : Imm12) : (zextByte b + zextImm12 nnn).toNat ≤ 0x10FE := by
  have hb := b.isLt
  have hn := nnn.isLt
  rw [toNat_jpV0Target]; omega

theorem completed_call (nnn : Imm12) (h : s.sp.val < 15) : Completed (.call nnn) s
    (((s.setSp ⟨s.sp.val + 1, by omega⟩).setSlot ⟨s.sp.val + 1, by omega⟩ s.pc).setPc (zextImm12 nnn)) where
  frame := rfl
  pcMoved h := by cases h
  pcSet _ := .inl (le_trans (zextImm12_le nnn) (by decide))
  memKept _ := rfl
  memCanonical h := h
  slots j := by
    rw [getSlot_setPc, getSlot_setSlot]
    split
    next hj => exact .inr ⟨by rw [hj]; exact Fin.ne_of_val_ne (Nat.succ_ne_zero _), rfl⟩
    next => exact .inl rfl
  vfKept _ _ := rfl
  vfFlag h := by cases h

theorem completed_ret (ign : Nibble) (h : 0 < s.sp.val) :
    Completed (.ret ign) s ((s.setSp ⟨s.sp.val - 1, by omega⟩).setPc (s.getSlot s.sp)) where
  frame := rfl
  pcMoved h := by cases h
  pcSet _ := .inr rfl
  memKept _ := rfl
  memCanonical h := h
  slots _ := .inl rfl
  vfKept _ _ := rfl
  vfFlag h := by cases h

/-! ## FX65 -/

/-- FX65 leaves VF alone unless it loads all sixteen registers. -/
theorem getV_vf_loadRegsFrom (bs : List Byte) (h : bs.length ≤ 15) : (s.loadRegsFrom 0 bs).getV vf = s.getV vf := by
  have hvf : vf.toNat = 15 := rfl
  rw [getV_loadRegsFrom s 0 bs vf (by simp; omega), dif_neg (by simp [hvf]; omega)]

theorem completed_loadRegs (x : Nibble) (bs : List Byte) (h : bs.length = x.toNat + 1) :
    Completed (.loadRegs x) s (s.loadRegsFrom 0 bs).advance := by
  refine completed_advance rfl (by rw [loadRegsFrom_frame]) (fun _ hx => ?_) nofun
  have hlt : x.toNat ≠ 15 := fun e => vf_ne_of_beq hx (BitVec.eq_of_toNat_eq e.symm)
  exact getV_vf_loadRegsFrom bs (by have := x.isLt; omega)

/-! ## The outcomes of exec -/

/-- Executing i in s answers the next state t: a fault of i, the suspension of FX0A, or i completed. -/
def Outcome (i : Instr) (s t : State) : Prop :=
  (∃ code addr k, t = takeFault code (some (encode i)) addr k s) ∨
  (∃ x, i = .ldVxKey x ∧ t = s.setStatus (.waitingKey x)) ∨ Completed i s t

theorem outcome_takeFault (code : FaultCode) (addr : Option Nat) (k : Option Byte) :
    Outcome i s (takeFault code (some (encode i)) addr k s) := .inl ⟨code, addr, k, rfl⟩

theorem Completed.outcome (h : Completed i s t) : Outcome i s t := .inr (.inr h)

theorem skipOnKey_outcome {wanted : Bool} {x : Nibble} (s : State)
    (h : ∀ c, Completed i s (s.skipIf c)) : ∃ t, skipOnKey wanted x (encode i) s = .next t ∧ Outcome i s t := by
  rcases Nat.lt_or_ge (s.getV x).toNat 16 with hk | hk
  · exact ⟨_, skipOnKey_next wanted x _ hk, (h _).outcome⟩
  · exact ⟨_, skipOnKey_fault wanted x _ hk, outcome_takeFault _ _ _⟩

/-- Every instruction answers a next state, which is one of its outcomes. -/
theorem exec_outcome (i : Instr) (s : State) : ∃ t, exec i s = .next t ∧ Outcome i s t := by
  cases i with
  | ret ign =>
    by_cases h : s.sp.val = 0
    · exact ⟨_, execRet_fault ign h, outcome_takeFault _ _ _⟩
    · exact ⟨_, execRet_next ign (Nat.pos_of_ne_zero h), (completed_ret ign (Nat.pos_of_ne_zero h)).outcome⟩
  | call nnn =>
    by_cases h : s.sp.val < 15
    · exact ⟨_, execCall_next nnn h, (completed_call nnn h).outcome⟩
    · exact ⟨_, execCall_fault nnn (by omega), outcome_takeFault _ _ _⟩
  | jp nnn =>
    exact ⟨_, rfl, (completed_setPc rfl rfl (.inl (le_trans (zextImm12_le nnn) (by decide)))).outcome⟩
  | jpV0 nnn => exact ⟨_, rfl, (completed_setPc rfl rfl (.inl (jpV0Target_le _ nnn))).outcome⟩
  | seImm | sneImm | seReg | sneReg => exact ⟨_, rfl, (completed_skipIf _ rfl rfl rfl).outcome⟩
  | skp | sknp => exact skipOnKey_outcome s fun c => completed_skipIf c rfl rfl rfl
  | ldImm | addImm | ldReg | orReg | andReg | xorReg | ldVxDt =>
    exact ⟨_, rfl, (completed_result _ rfl rfl rfl).outcome⟩
  | rnd x nn => exact ⟨_, rfl, (completed_randomInto _ x nn).outcome⟩
  | addReg | subReg | shrReg | subnReg | shlReg => exact ⟨_, rfl, (completed_resultWithFlag _ _ _ rfl rfl).outcome⟩
  | cls | ldI | addI | ldFont | ldDtVx | ldStVx => exact ⟨_, rfl, (completed_noFlag rfl rfl rfl).outcome⟩
  | ldVxKey x => exact ⟨_, rfl, .inr (.inl ⟨x, rfl, rfl⟩)⟩
  | drw x y n =>
    by_cases h : n.toNat = 0 ∨ s.i.toNat + n.toNat ≤ Config.memSize
    · exact ⟨_, execDrw_next x y n h, (completed_drw x y n _ _).outcome⟩
    · exact ⟨_, execDrw_fault x y n (by omega), outcome_takeFault _ _ _⟩
  | ldBcd x =>
    rcases le_or_gt (s.i.toNat + 3) Config.memSize with h | h
    · exact ⟨_, execLdBcd_next x h, (completed_store rfl rfl rfl h).outcome⟩
    · exact ⟨_, execLdBcd_fault x h, outcome_takeFault _ _ _⟩
  | storeRegs x =>
    rcases le_or_gt (s.i.toNat + (x.toNat + 1)) Config.memSize with h | h
    · exact ⟨_, storeRegisters_next _ x h, (completed_store rfl rfl rfl (by simpa using h)).outcome⟩
    · exact ⟨_, storeRegisters_fault _ x h, outcome_takeFault _ _ _⟩
  | loadRegs x =>
    rcases le_or_gt (s.i.toNat + (x.toNat + 1)) Config.memSize with h | h
    · exact ⟨_, loadRegisters_next _ x h, (completed_loadRegs x _ (by simp)).outcome⟩
    · exact ⟨_, loadRegisters_fault _ x h, outcome_takeFault _ _ _⟩

/-- The outcomes, for an answer at hand. -/
theorem outcome_of_exec (h : exec i s = .next t) : Outcome i s t := by
  obtain ⟨u, hu, hout⟩ := exec_outcome i s
  obtain rfl : u = t := Host.Outcome.next.inj (hu.symm.trans h)
  exact hout

/-! ## The statements about every instruction -/

/-- Settles O10: `exec_outcome` names the next state. -/
theorem everyInstrAnswersNext : Obligations.EveryInstrAnswersNext := fun i s =>
  let ⟨t, ht, _⟩ := exec_outcome i s
  ⟨t, ht⟩

/-- Settles O54: neither the suspension nor a completed instruction answers the status Faulted. -/
theorem faultingInstrChangesNothingElse : Obligations.FaultingInstrChangesNothingElse := by
  intro i s t hrun hexec hfault
  rcases outcome_of_exec hexec with ⟨code, addr, k, rfl⟩ | ⟨x, -, rfl⟩ | hdone
  · exact ⟨rfl, _, rfl, rfl, rfl, rfl⟩
  · cases hfault
  · rw [hdone.status_eq, hrun] at hfault; cases hfault

/-- Settles O56: only a completed instruction goes on running. -/
theorem pcMovesByTwoOrFour : Obligations.PcMovesByTwoOrFour := by
  intro i s t hexec hi hrun
  rcases outcome_of_exec hexec with ⟨code, addr, k, rfl⟩ | ⟨x, -, rfl⟩ | hdone
  · exact ⟨nofun, fun _ => rfl⟩
  · exact ⟨nofun, fun _ => rfl⟩
  · exact ⟨fun _ => hdone.pcMoved hi, fun h => absurd (hdone.status_eq.trans hrun) h⟩

theorem flagByte_eq (c : Bool) : flagByte c = 0 ∨ flagByte c = 1 := by cases c <;> simp [flagByte]

/-- Settles O28: a fault and the suspension keep all registers, and FX0A writes no flag. -/
theorem onlySixInstrsWriteFlag : Obligations.OnlySixInstrsWriteFlag := by
  intro i s t hexec
  rcases outcome_of_exec hexec with ⟨code, addr, k, rfl⟩ | ⟨x, rfl, rfl⟩ | hdone
  · exact ⟨fun _ _ => rfl, fun _ h => absurd rfl h⟩
  · exact ⟨fun _ _ => rfl, nofun⟩
  · refine ⟨hdone.vfKept, fun hi _ => ?_⟩
    obtain ⟨c, hc⟩ := hdone.vfFlag hi
    exact hc ▸ flagByte_eq c

/-! ## What the host's events leave unchanged -/

/-- The state after the press of k that ends the wait of FX0A with destination x. -/
def afterPress (s : State) (x k : Nibble) : State :=
  (((s.setKey k true).setV x (zextNibble k)).advance).setStatus .running

/-- A key event ends the wait, or sets its flag and nothing else (46_timers_keys.md R117, R120). -/
theorem keyEvent_cases (k : Nibble) (p : Bool) (s : State) :
    (∃ x, s.status = .waitingKey x ∧ keyEvent k p s = afterPress s x k) ∨ keyEvent k p s = s.setKey k p := by
  by_cases h : ∃ x, s.status = .waitingKey x
  · obtain ⟨x, hx⟩ := h
    rw [keyEvent_waiting k p hx]
    split
    · exact .inl ⟨x, hx, rfl⟩
    · exact .inr rfl
  · exact .inr (keyEvent_notWaiting k p (not_exists.mp h))

/-- Of the host's events only reset changes memory (20_memory.md R51). -/
theorem hostEvent_mem (e : HostEvent) (s : State) (h : ∀ image, e ≠ .reset image) :
    (hostEvent e s).mem = s.mem := by
  cases e with
  | reset image => exact absurd rfl (h image)
  | keyEvent k p => rcases keyEvent_cases k p s with ⟨x, -, he⟩ | he <;> rw [hostEvent, he] <;> rfl
  | timerTick =>
    cases hs : s.status.final with
    | false => rw [hostEvent, timerTick_goesOn hs, setSt_mem, setDt_mem]
    | true => rw [hostEvent, timerTick_final hs]
  | stopRequest =>
    cases hs : s.status.final with
    | false => rw [hostEvent, stopRequest_goesOn hs, setStatus_mem]
    | true => rw [hostEvent, stopRequest_final hs]

/-- Settles O39: a fault and the suspension keep memory, and so does every completed instruction that is no store. -/
theorem onlyStoresChangeMemory : Obligations.OnlyStoresChangeMemory := by
  refine ⟨fun i s t hexec hi => ?_, fun e s he => hostEvent_mem e s he⟩
  have hmem : t.mem = s.mem := by
    rcases outcome_of_exec hexec with ⟨code, addr, k, rfl⟩ | ⟨x, -, rfl⟩ | hdone
    · rfl
    · rfl
    · exact hdone.memKept hi
  exact ⟨hmem, fun a => congrArg (Memory.read · a) hmem⟩

end Sys2Proof.Machine
end

section
/-! SUPPORT. The step: when it has a next state, and the invariant it keeps. -/

namespace Sys2Proof.Machine

variable {s t : State}

/-! ## The engine step, stage by stage (40_engine_cycle.md R67) -/

theorem fetch_setRedraw (s : State) (b : Bool) : (s.setRedraw b).fetch = s.fetch := rfl

theorem engineStep_noFetch (h : s.fetch = none) :
    engineStep s = .next (takeFault .fetchOutOfRange none none none (s.setRedraw false)) := by
  simp only [engineStep, fetch_setRedraw, h]

theorem engineStep_unknown {w : Word} (h : s.fetch = some w) (hd : decode w = .unknownInstruction) :
    engineStep s = .next (takeFault .unknownInstruction (some w) none none (s.setRedraw false)) := by
  simp only [engineStep, fetch_setRedraw, h, hd]

theorem engineStep_instr {w : Word} {i : Instr} (h : s.fetch = some w) (hd : decode w = .instr i) :
    engineStep s = exec i (s.setRedraw false) := by
  simp only [engineStep, fetch_setRedraw, h, hd]

/-- A running engine's step always has a next state: each stage that faults enters a fault (log 3). -/
theorem engineStep_next (s : State) : ∃ t, engineStep s = .next t := by
  rcases engineStep_cases s with ⟨-, h⟩ | ⟨w, -, -, h⟩ | ⟨w, i, -, -, h⟩
  · exact ⟨_, h⟩
  · exact ⟨_, h⟩
  · rw [h]; exact everyInstrAnswersNext i _

theorem fetch_some_pc {w : Word} (h : s.fetch = some w) : s.pc.toNat ≤ 4094 := by
  by_contra hpc
  rw [fetch_eq_none (by omega)] at h
  cases h

/-- Settles O6: where the engine moves, step is the engine step, which runs what it fetched. -/
theorem stepRunsDecodedInstr : Obligations.StepRunsDecodedInstr := by
  intro s w i hmoves hfetch hdecode
  rw [step_of_engineMoves hmoves]
  exact engineStep_instr (fetch_eq_some hfetch) hdecode

/-- Settles O7: the fetch is the first stage and faults. -/
theorem fetchBeyondMemoryFaults : Obligations.FetchBeyondMemoryFaults := by
  intro s hmoves hpc
  rw [step_of_engineMoves hmoves]
  exact ⟨_, engineStep_noFetch (fetch_eq_none hpc), rfl⟩

/-- Settles O8: the decoder is the second stage and faults. -/
theorem unknownWordFaults : Obligations.UnknownWordFaults := by
  intro s w hmoves hfetch hdecode
  rw [step_of_engineMoves hmoves]
  exact ⟨_, engineStep_unknown (fetch_eq_some hfetch) hdecode, rfl⟩

/-- Settles O9: the three turns without an engine step. -/
theorem turnsWithoutEngineStep : Obligations.TurnsWithoutEngineStep := by
  refine ⟨fun s e rest h => step_host h, fun s rest hs h => ?_, fun s x hs h => ?_⟩
  · exact (step_engine h).trans (engineTurn_idle hs)
  · exact (step_alone h).trans (engineAlone_waiting hs)

theorem engineTurn_next (s : State) : ∃ t, engineTurn s = .next t := by
  by_cases h : s.status = .running
  · rw [engineTurn_running h]; exact engineStep_next s
  · exact ⟨s, engineTurn_idle h⟩

theorem step_next_of_scheduled (h : s.schedule ≠ []) : ∃ t, step s = .next t := by
  match hsch : s.schedule with
  | [] => exact absurd hsch h
  | .host e :: rest => exact ⟨_, step_host hsch⟩
  | .engine :: rest => rw [step_engine hsch]; exact engineTurn_next _

theorem step_next_of_goesOn (h : s.schedule = []) (h1 : s.status ≠ .faulted) (h2 : s.status ≠ .stopped) :
    ∃ t, step s = .next t := by
  rw [step_alone h]
  match hs : s.status with
  | .running => rw [engineAlone_running hs]; exact engineStep_next s
  | .waitingKey x => exact ⟨s, engineAlone_waiting hs⟩
  | .faulted => exact absurd hs h1
  | .stopped => exact absurd hs h2

/-- Settles O11: only the lone turn of a finished engine has no next state. -/
theorem stepStopsOnlyAfterTheRun : Obligations.StepStopsOnlyAfterTheRun := by
  refine ⟨fun s h => ?_, fun s hsch hs => ?_, fun s hsch hs => ?_⟩
  · by_cases hsch : s.schedule = []
    · obtain ⟨h1, h2⟩ := h.resolve_left (not_not.mpr hsch)
      exact step_next_of_goesOn hsch h1 h2
    · exact step_next_of_scheduled hsch
  · exact (step_alone hsch).trans (engineAlone_faulted hs)
  · exact (step_alone hsch).trans (engineAlone_stopped hs)

/-! ## What the invariant looks at -/

/-- The invariant speaks of memory's form, the stack, PC, status, record and redraw only. -/
theorem BlockInv.congr (h : BlockInv s) (hmem : t.mem.wf = true) (hstack : t.stack = s.stack) (hpc : t.pc = s.pc)
    (hstatus : t.status = s.status) (hrecord : t.faultRecord = s.faultRecord) (hredraw : t.redraw = s.redraw) :
    BlockInv t := by
  have hslot : ∀ j, t.getSlot j = s.getSlot j := fun j => by rw [State.getSlot, State.getSlot, hstack]
  constructor
  case memCanonical => exact hmem
  case slotZero => rw [hslot]; exact h.slotZero
  case slotsBelow => intro j; rw [hslot]; exact h.slotsBelow j
  case pcBelow => rw [hpc]; exact h.pcBelow
  case waitPcBelow => rw [hpc, hstatus]; exact h.waitPcBelow
  case recordIffFaulted => rw [hrecord, hstatus]; exact h.recordIffFaulted
  case waitNotRedrawn => rw [hstatus, hredraw]; exact h.waitNotRedrawn
  case faultNotRedrawn => rw [hstatus, hredraw]; exact h.faultNotRedrawn

/-- Fault entry writes the record and clears redraw. -/
theorem BlockInv.takeFault (h : BlockInv s) (code : FaultCode) (w : Option Word) (a : Option Nat) (k : Option Byte) :
    BlockInv (takeFault code w a k s) where
  memCanonical := h.memCanonical
  slotZero := h.slotZero
  slotsBelow := h.slotsBelow
  pcBelow := h.pcBelow
  waitPcBelow := nofun
  recordIffFaulted := by simp
  waitNotRedrawn := nofun
  faultNotRedrawn _ := rfl

theorem BlockInv.record_none (h : BlockInv s) (hs : s.status ≠ .faulted) : s.faultRecord = none := by
  rw [← Option.not_isSome_iff_eq_none, h.recordIffFaulted]; exact hs

/-- The invariant of a state that runs. -/
theorem BlockInv.ofRunning (hstatus : s.status = .running) (hmem : s.mem.wf = true) (hslot0 : s.getSlot 0 = 0)
    (hslots : ∀ j, (s.getSlot j).toNat ≤ 4094) (hpc : s.pc.toNat ≤ 0x10FE) (hrecord : s.faultRecord = none) :
    BlockInv s := by
  constructor
  case recordIffFaulted => simp [hstatus, hrecord]
  case waitPcBelow | waitNotRedrawn | faultNotRedrawn => simp [hstatus]
  all_goals assumption

/-! ## The engine keeps the invariant -/

theorem BlockInv.setRedraw (h : BlockInv s) (hs : s.status = .running) (b : Bool) : BlockInv (s.setRedraw b) :=
  .ofRunning hs h.memCanonical h.slotZero h.slotsBelow h.pcBelow (h.record_none (by simp [hs]))

theorem BlockInv.suspend (h : BlockInv s) (hs : s.status = .running) (hpc : s.pc.toNat ≤ 4094)
    (hredraw : s.redraw = false) (x : Nibble) : BlockInv (s.setStatus (.waitingKey x)) where
  memCanonical := h.memCanonical
  slotZero := h.slotZero
  slotsBelow := h.slotsBelow
  pcBelow := h.pcBelow
  waitPcBelow _ _ := hpc
  recordIffFaulted := by simp [h.record_none (by simp [hs])]
  waitNotRedrawn _ _ := hredraw
  faultNotRedrawn := nofun

/-- PC after a completed instruction that was fetched: at most 4098 by an increment or a skip, NNN plus V0 by a jump, or
a slot (10_state.md R21). -/
theorem Completed.pc_le {i : Instr} (hdone : Completed i s t) (h : BlockInv s) (hpc : s.pc.toNat ≤ 4094) :
    t.pc.toNat ≤ 0x10FE := by
  cases hi : isControl i with
  | true =>
    rcases hdone.pcSet hi with hle | hslot
    · exact hle
    · rw [hslot]; exact (h.slotsBelow s.sp).trans (by decide)
  | false =>
    rcases hdone.pcMoved hi with h2 | ⟨-, h4⟩
    · rw [h2, BitVec.toNat_add, show (2 : Word).toNat = 2 from rfl]; omega
    · rw [h4, BitVec.toNat_add, show (4 : Word).toNat = 4 from rfl]; omega

theorem BlockInv.completed {i : Instr} (h : BlockInv s) (hs : s.status = .running) (hpc : s.pc.toNat ≤ 4094)
    (hdone : Completed i s t) : BlockInv t := by
  refine .ofRunning (hdone.status_eq.trans hs) (hdone.memCanonical h.memCanonical) ?slotZero (fun j => ?slotsBelow)
    (hdone.pc_le h hpc) (hdone.faultRecord_eq.trans (h.record_none (by simp [hs])))
  case slotZero =>
    rcases hdone.slots 0 with hkept | ⟨hne, -⟩
    · exact hkept.trans h.slotZero
    · exact absurd rfl hne
  case slotsBelow =>
    rcases hdone.slots j with hkept | ⟨-, hpushed⟩
    · rw [hkept]; exact h.slotsBelow j
    · rw [hpushed]; exact hpc

/-- An instruction that was fetched keeps the invariant and FONT, whatever its outcome. -/
theorem BlockInv.exec {i : Instr} (h : BlockInv s) (hs : s.status = .running) (hpc : s.pc.toNat ≤ 4094)
    (hredraw : s.redraw = false) (hexec : exec i s = .next t) : BlockInv t ∧ t.font = s.font := by
  rcases outcome_of_exec hexec with ⟨code, addr, k, rfl⟩ | ⟨x, -, rfl⟩ | hdone
  · exact ⟨h.takeFault _ _ _ _, rfl⟩
  · exact ⟨h.suspend hs hpc hredraw x, rfl⟩
  · exact ⟨h.completed hs hpc hdone, hdone.font_eq⟩

theorem BlockInv.engineStep (h : BlockInv s) (hs : s.status = .running) (hstep : engineStep s = .next t) :
    BlockInv t ∧ t.font = s.font := by
  have h0 : BlockInv (s.setRedraw false) := h.setRedraw hs false
  rcases engineStep_cases s with ⟨-, he⟩ | ⟨w, -, -, he⟩ | ⟨w, i, hfetch, -, he⟩
  · obtain rfl := Host.Outcome.next.inj (he.symm.trans hstep)
    exact ⟨h0.takeFault _ _ _ _, rfl⟩
  · obtain rfl := Host.Outcome.next.inj (he.symm.trans hstep)
    exact ⟨h0.takeFault _ _ _ _, rfl⟩
  · exact h0.exec hs (fetch_some_pc hfetch) rfl (he.symm.trans hstep)

/-! ## The host's events keep the invariant -/

theorem blockInv_reset : BlockInv State.reset :=
  .ofRunning rfl rfl rfl (by decide) (by decide) rfl

theorem blockInv_resetWithFont (f : Vector Byte 80) : BlockInv (resetWithFont f) :=
  blockInv_reset.congr (resetWithFont_wf f) rfl rfl rfl rfl rfl

theorem BlockInv.resetEvent (h : BlockInv s) (image : List Byte) :
    BlockInv (resetEvent image s) ∧ (resetEvent image s).font = s.font := by
  unfold Machine.resetEvent
  split
  next hfits => exact ⟨blockInv_reset.congr (resetWith_wf s.font hfits) rfl rfl rfl rfl rfl, rfl⟩
  next => exact ⟨h, rfl⟩

theorem BlockInv.setKey (h : BlockInv s) (k : Nibble) (p : Bool) : BlockInv (s.setKey k p) :=
  h.congr h.memCanonical rfl rfl rfl rfl rfl

/-- The end of the wait: PC was an address that was fetched, so PC + 2 stays in bounds. -/
theorem BlockInv.press (h : BlockInv s) {x : Nibble} (hs : s.status = .waitingKey x) (k : Nibble) :
    BlockInv (afterPress s x k) := by
  refine .ofRunning rfl h.memCanonical h.slotZero h.slotsBelow ?pc (h.record_none (by simp [hs]))
  case pc =>
    have hpc := h.waitPcBelow x hs
    show (s.pc + 2).toNat ≤ 0x10FE
    rw [BitVec.toNat_add, show (2 : Word).toNat = 2 from rfl]; omega

theorem BlockInv.keyEvent (h : BlockInv s) (k : Nibble) (p : Bool) :
    BlockInv (keyEvent k p s) ∧ (keyEvent k p s).font = s.font := by
  rcases keyEvent_cases k p s with ⟨x, hs, he⟩ | he <;> rw [he]
  · exact ⟨h.press hs k, rfl⟩
  · exact ⟨h.setKey k p, rfl⟩

theorem BlockInv.timerTick (h : BlockInv s) : BlockInv (timerTick s) ∧ (timerTick s).font = s.font := by
  cases hs : s.status.final with
  | false =>
    rw [timerTick_goesOn hs]
    exact ⟨h.congr h.memCanonical rfl rfl rfl rfl rfl, rfl⟩
  | true => rw [timerTick_final hs]; exact ⟨h, rfl⟩

theorem BlockInv.stopRequest (h : BlockInv s) : BlockInv (stopRequest s) ∧ (stopRequest s).font = s.font := by
  cases hs : s.status.final with
  | false =>
    rw [stopRequest_goesOn hs]
    have hnone := h.record_none (fun e => by simp [e, Status.final] at hs)
    exact ⟨⟨h.memCanonical, h.slotZero, h.slotsBelow, h.pcBelow, nofun, by simp [hnone], nofun, nofun⟩, rfl⟩
  | true => rw [stopRequest_final hs]; exact ⟨h, rfl⟩

theorem BlockInv.hostEvent (h : BlockInv s) (e : HostEvent) :
    BlockInv (hostEvent e s) ∧ (hostEvent e s).font = s.font := by
  cases e with
  | reset image => exact h.resetEvent image
  | keyEvent k p => exact h.keyEvent k p
  | timerTick => exact h.timerTick
  | stopRequest => exact h.stopRequest

theorem BlockInv.setSchedule (h : BlockInv s) (l : List Turn) : BlockInv (s.setSchedule l) :=
  h.congr h.memCanonical rfl rfl rfl rfl rfl

/-- Settles O59: a step is a host event, a running engine's step or a turn without a step, and each keeps the
invariant. -/
theorem stepKeepsInvariant : Obligations.StepKeepsInvariant := by
  intro s t h hstep
  rcases step_cases hstep with ⟨e, rest, -, rfl⟩ | ⟨⟨hrun, -⟩, hengine⟩ | ⟨-, rfl⟩
  · exact (h.setSchedule rest).hostEvent e
  · exact (h.setSchedule s.schedule.tail).engineStep hrun hengine
  · exact ⟨h.setSchedule _, rfl⟩

/-- Settles O60: the reset state runs with an empty stack, and FONT is written inside memory. -/
theorem resetHasInvariant : Obligations.ResetHasInvariant := ⟨blockInv_reset, blockInv_resetWithFont⟩

/-! ## After the run -/

/-- Once the run is over, a host event other than a reset that fits changes key flags at most. -/
theorem hostEvent_afterRun (e : HostEvent) (hs : s.status.final = true)
    (hreset : ∀ image, e = .reset image → 3584 < image.length) :
    hostEvent e s = { s with key := (hostEvent e s).key } := by
  cases e with
  | reset image =>
    have hlong : ¬ image.length ≤ Config.maxImage := Nat.not_le.mpr (hreset image rfl)
    have hkept : resetEvent image s = s := if_neg hlong
    rw [hostEvent, hkept]
  | keyEvent k p =>
    have hkey : keyEvent k p s = s.setKey k p := keyEvent_notWaiting k p fun x hx => by simp [hx, Status.final] at hs
    rw [hostEvent, hkey]; rfl
  | timerTick => rw [hostEvent, timerTick_final hs]
  | stopRequest => rw [hostEvent, stopRequest_final hs]

theorem final_of_over (h : s.status = .faulted ∨ s.status = .stopped) : s.status.final = true := by
  rcases h with h | h <;> rw [h] <;> rfl

/-- Settles O55: after the run a step is a host event or a turn that passes. -/
theorem faultIsFinalUntilReset : Obligations.FaultIsFinalUntilReset := by
  intro s t hover hstep hreset
  have hframe : t = { s with key := t.key, schedule := t.schedule } := by
    rcases step_cases hstep with ⟨e, rest, hsch, rfl⟩ | ⟨⟨hrun, -⟩, -⟩ | ⟨-, rfl⟩
    · have hkeys := hostEvent_afterRun (s := s.setSchedule rest) e (final_of_over hover)
        fun image he => hreset image rest (he ▸ hsch)
      rw [hkeys]; rfl
    · simp [hrun] at hover
    · rfl
  exact ⟨by rw [hframe], by rw [hframe], hframe⟩

end Sys2Proof.Machine
end

section
/-! SUPPORT. Memory: its canonical form, the block transfers FX33, FX55, FX65 (44_index_memory.md), and reset
(70_reset_and_hazards.md). -/

namespace Sys2Proof.Machine

/-! ## The canonical form -/

namespace Memory

theorem wfFrom_cons {lo a : Nat} {b : Byte} {rest : Memory} : wfFrom lo ((a, b) :: rest) = true ↔
    lo ≤ a ∧ a < Config.memSize ∧ b ≠ background a ∧ wfFrom (a + 1) rest = true := by
  simp [wfFrom, and_assoc]

theorem read_cons_same (a : Nat) (b : Byte) (rest : Memory) : read ((a, b) :: rest) a = b := by simp [read]

theorem read_cons_other {a c : Nat} (b : Byte) (rest : Memory) (h : a ≠ c) :
    read ((a, b) :: rest) c = read rest c := by
  simp [read, h]

/-- A canonical memory whose first address is above a differs at a from one that lists a first. -/
theorem read_ne_of_head {a : Nat} {b : Byte} {rest m : Memory} {lo : Nat} (hb : b ≠ background a)
    (hm : wfFrom lo m = true) (ha : a < lo) : read ((a, b) :: rest) a ≠ read m a := by
  rwa [read_cons_same, read_below hm ha]

/-- Canonical memories that read alike are equal: their first addresses agree, or one lists a byte that differs from
what the other reads there. -/
theorem eq_of_read_eq {m m' : Memory} {lo : Nat} (h : wfFrom lo m = true) (h' : wfFrom lo m' = true)
    (heq : ∀ a, a < Config.memSize → m.read a = m'.read a) : m = m' := by
  induction m generalizing lo m' with
  | nil =>
    cases m' with
    | nil => rfl
    | cons c' rest' =>
      obtain ⟨-, ha', hb', -⟩ := wfFrom_cons.mp h'
      exact absurd (heq c'.1 ha').symm (read_ne_of_head (lo := c'.1 + 1) hb' rfl (Nat.lt_succ_self _))
  | cons c rest ih =>
    obtain ⟨a, b⟩ := c
    obtain ⟨-, ha, hb, hrest⟩ := wfFrom_cons.mp h
    cases m' with
    | nil => exact absurd (heq a ha) (read_ne_of_head (lo := a + 1) hb rfl (Nat.lt_succ_self _))
    | cons c' rest' =>
      obtain ⟨a', b'⟩ := c'
      obtain ⟨-, ha', hb', hrest'⟩ := wfFrom_cons.mp h'
      rcases Nat.lt_trichotomy a a' with hlt | rfl | hgt
      · have hm' := wfFrom_cons.mpr ⟨le_refl a', ha', hb', hrest'⟩
        exact absurd (heq a ha) (read_ne_of_head hb hm' hlt)
      · have hbb : b = b' := by simpa [read_cons_same] using heq a ha
        have hrr : rest = rest' := by
          refine ih hrest hrest' fun c hc => ?_
          rcases Nat.lt_or_ge a c with hac | hca
          · simpa [read_cons_other _ _ (Nat.ne_of_lt hac)] using heq c hc
          · rw [read_below hrest (Nat.lt_succ_of_le hca), read_below hrest' (Nat.lt_succ_of_le hca)]
        rw [hbb, hrr]
      · have hm := wfFrom_cons.mpr ⟨le_refl a, ha, hb, hrest⟩
        exact absurd (heq a' ha').symm (read_ne_of_head hb' hm hgt)

end Memory

/-- Settles O40: the bound is that of the address space, and the lists agree from address 0 on. -/
theorem canonicalMemoriesAreEqual : Obligations.CanonicalMemoriesAreEqual := fun _ _ h h' =>
  Memory.eq_of_read_eq h h'

/-! ## A completed store -/

variable {s : State}

/-- The state after the bytes were stored at I and PC moved on. -/
def afterStore (s : State) (bs : List Byte) : State := (s.setMem (s.mem.writeBytes s.i.toNat bs)).advance

theorem exec_ldBcd_inRange {x : Nibble} (h : s.i.toNat + 2 < 4096) :
    exec (.ldBcd x) s = .next (afterStore s (bcdDigits (s.getV x))) := execLdBcd_next x h

theorem exec_storeRegs_inRange {x : Nibble} (h : s.i.toNat + x.toNat < 4096) :
    exec (.storeRegs x) s = .next (afterStore s (s.regsUpTo x)) := storeRegisters_next false x h

theorem readByte_afterStore {bs : List Byte} (hwf : s.mem.wf = true) (h : s.i.toNat + bs.length ≤ Config.memSize)
    (c : Nat) : (afterStore s bs).readByte c =
      if s.i.toNat ≤ c ∧ c < s.i.toNat + bs.length then bs.getD (c - s.i.toNat) 0 else s.readByte c :=
  Memory.read_writeBytes c hwf h

theorem readByte_afterStore_inside {bs : List Byte} (hwf : s.mem.wf = true)
    (h : s.i.toNat + bs.length ≤ Config.memSize) {j : Nat} (hj : j < bs.length) :
    (afterStore s bs).readByte (s.i.toNat + j) = bs[j] := Memory.read_writeBytes_inside hwf h hj

theorem afterStore_onlyBytesPc (s : State) (bs : List Byte) : OnlyBytesPc s.i.toNat bs.length s (afterStore s bs) :=
  ⟨rfl, fun _ hc => Memory.read_writeBytes_outside hc⟩

/-- A fetch after the store reads the stored bytes where they lie and the old ones elsewhere (20_memory.md R52). -/
theorem afterStore_seenByFetch {bs : List Byte} {f : Nat → Byte} (hwf : s.mem.wf = true)
    (h : s.i.toNat + bs.length ≤ Config.memSize) (hf : ∀ j, ∀ hj : j < bs.length, bs[j] = f j) :
    SeenByFetch s bs.length f (afterStore s bs) := by
  have hread : ∀ c, (afterStore s bs).readByte c = byteAfterStore s bs.length f c := by
    intro c
    rw [readByte_afterStore hwf h, byteAfterStore]
    split
    next hc => rw [← hf _ (by omega), List.getD_eq_getElem]
    next => rfl
  intro a w ha hw
  refine ⟨ha, ?_⟩
  rw [hw, ← hread, ← hread]
  rfl

/-! ## FX33 -/

theorem toNat_ofNat8 {n : Nat} (h : n < 256) : (BitVec.ofNat 8 n).toNat = n := by
  rw [BitVec.toNat_ofNat, Nat.mod_eq_of_lt (by omega)]

theorem bcdDigits_fits (b : Byte) (h : s.i.toNat + 2 < 4096) : s.i.toNat + (bcdDigits b).length ≤ Config.memSize := by
  rw [length_bcdDigits]; exact h

/-- The digits of a byte by their place, the hundreds first. -/
theorem getElem_bcdDigits (b : Byte) (j : Nat) (hj : j < (bcdDigits b).length) :
    (bcdDigits b)[j] = BitVec.ofNat 8 (b.toNat / 10 ^ (2 - j) % 10) := by
  have hb := b.isLt
  rw [length_bcdDigits] at hj
  interval_cases j
  · rw [show b.toNat / 10 ^ (2 - 0) % 10 = b.toNat / 100 by omega]; rfl
  · rfl
  · rw [show b.toNat / 10 ^ (2 - 2) % 10 = b.toNat % 10 by omega]; rfl

/-- Settles O32: the three digits are each below 10, so no byte of them is cut. -/
theorem bcdStoresThreeDigits : Obligations.BcdStoresThreeDigits := by
  intro x s hwf hrange
  have hv := (s.getV x).isLt
  have hdigit := fun j => readByte_afterStore_inside (j := j) hwf (bcdDigits_fits (s.getV x) hrange)
  refine ⟨_, exec_ldBcd_inRange hrange, ?hundreds, ?tens, ?ones, rfl, afterStore_onlyBytesPc s _⟩
  case hundreds => rw [← Nat.add_zero s.i.toNat, hdigit 0 (by simp)]; exact toNat_ofNat8 (by omega)
  case tens => rw [hdigit 1 (by simp)]; exact toNat_ofNat8 (by omega)
  case ones => rw [hdigit 2 (by simp)]; exact toNat_ofNat8 (by omega)

/-! ## FX55 and FX65 -/

theorem regsUpTo_fits {x : Nibble} (h : s.i.toNat + x.toNat < 4096) :
    s.i.toNat + (s.regsUpTo x).length ≤ Config.memSize := by rw [length_regsUpTo]; exact h

theorem readByte_afterStoreRegs {x j : Nibble} (hwf : s.mem.wf = true) (h : s.i.toNat + x.toNat < 4096)
    (hj : j.toNat ≤ x.toNat) : (afterStore s (s.regsUpTo x)).readByte (s.i.toNat + j.toNat) = s.getV j := by
  rw [readByte_afterStore_inside hwf (regsUpTo_fits h) (by simpa using Nat.lt_succ_of_le hj), getElem_regsUpTo,
    BitVec.ofNat_toNat, BitVec.setWidth_eq]

/-- Settles O33: the bytes stored are the registers up to x. -/
theorem storeRegistersAtIndex : Obligations.StoreRegistersAtIndex := by
  intro x s hwf hrange
  refine ⟨_, exec_storeRegs_inRange hrange, fun j hj => readByte_afterStoreRegs hwf hrange hj, rfl, ?_⟩
  simpa using afterStore_onlyBytesPc s (s.regsUpTo x)

/-- The state after the registers up to x were loaded from I and PC moved on. -/
def afterLoad (s : State) (x : Nibble) : State :=
  (s.loadRegsFrom 0 (s.mem.readBytes s.i.toNat (x.toNat + 1))).advance

theorem exec_loadRegs_inRange {x : Nibble} (h : s.i.toNat + x.toNat < 4096) :
    exec (.loadRegs x) s = .next (afterLoad s x) := loadRegisters_next false x h

theorem getV_afterLoad (x j : Nibble) : (afterLoad s x).getV j =
    if j.toNat ≤ x.toNat then s.readByte (s.i.toNat + j.toNat) else s.getV j := by
  have hx := x.isLt
  rw [afterLoad, getV_advance, getV_loadRegsFrom _ _ _ _ (by simp; omega)]
  by_cases hj : j.toNat ≤ x.toNat
  · rw [dif_pos (by simp; omega), if_pos hj, Memory.getElem_readBytes]; rfl
  · rw [dif_neg (by simp; omega), if_neg hj]

theorem afterLoad_frame (s : State) (x : Nibble) :
    afterLoad s x = { s with v := (afterLoad s x).v, pc := (afterLoad s x).pc } := by
  unfold afterLoad
  rw [loadRegsFrom_frame]
  rfl

/-- Settles O34: the load writes the registers up to x, then PC moves on. -/
theorem loadRegistersFromIndex : Obligations.LoadRegistersFromIndex := by
  intro x s hrange
  refine ⟨_, exec_loadRegs_inRange hrange, fun j hj => ?_, fun j hj => ?_, ?_, afterLoad_frame s x, fun a => ?_⟩
  · rw [getV_afterLoad, if_pos hj]
  · rw [getV_afterLoad, if_neg (Nat.not_le.mpr hj)]
  · rw [afterLoad, loadRegsFrom_frame]; rfl
  · rw [afterLoad_frame]; rfl

/-- Settles O37: the store leaves I, so the load reads the bytes it wrote. -/
theorem storeThenLoadRestoresRegisters : Obligations.StoreThenLoadRestoresRegisters := by
  intro x s f hwf hrange
  refine ⟨_, _, exec_storeRegs_inRange hrange, exec_loadRegs_inRange hrange, fun j hj => ?_⟩
  rw [getV_afterLoad, if_pos hj]
  exact readByte_afterStoreRegs hwf hrange hj

/-- Settles O38: each store is one of a block of bytes, which a fetch sees. -/
theorem storeIsSeenByNextFetch : Obligations.StoreIsSeenByNextFetch := by
  refine fun x s hwf => ⟨fun hrange => ⟨_, exec_storeRegs_inRange hrange, rfl, ?regs⟩,
    fun hrange => ⟨_, exec_ldBcd_inRange hrange, rfl, ?digits⟩⟩
  case regs =>
    simpa using afterStore_seenByFetch hwf (regsUpTo_fits hrange) (getElem_regsUpTo s x)
  case digits => 
    simpa using afterStore_seenByFetch hwf (bcdDigits_fits (s.getV x) hrange) (getElem_bcdDigits (s.getV x))

/-! ## LOADSTORE_ADVANCES_I -/

theorem toNat_advancedIndex {x : Nibble} (h : s.i.toNat + x.toNat < 4096) :
    (s.i + x.setWidth 16 + 1).toNat = s.i.toNat + x.toNat + 1 := by
  rw [BitVec.toNat_add, BitVec.toNat_add, BitVec.toNat_setWidth_of_le (by decide), show (1 : Word).toNat = 1 from rfl]
  omega

/-- Settles O35: the parameter's other value adds one update of I. -/
theorem advancingBlockMovesIndexOnly : Obligations.AdvancingBlockMovesIndexOnly := by
  intro x s h
  refine ⟨⟨_, storeRegisters_next false x h, _, storeRegisters_next true x h, rfl, toNat_advancedIndex h⟩,
    ⟨_, loadRegisters_next false x h, _, loadRegisters_next true x h, rfl, ?_⟩⟩
  rw [loadRegsFrom_frame]
  exact toNat_advancedIndex h

/-! ## Beyond memory -/

theorem memFault_faultEntered (w : Word) (s : State) :
    FaultEntered .memOutOfRange (some w) (some (max s.i.toNat 4096)) none s (memFault w s) := rfl

/-- Settles O36: each instruction's range check fails exactly there. -/
theorem blockBeyondMemoryFaults : Obligations.BlockBeyondMemoryFaults := by
  refine fun x y n s => ⟨fun h => ?_, fun h => ⟨?_, ?_⟩, fun hn h => ?_⟩
  · exact ⟨_, execLdBcd_fault x (Nat.lt_succ_of_le h), memFault_faultEntered _ s⟩
  · exact ⟨_, storeRegisters_fault _ x (Nat.lt_succ_of_le h), memFault_faultEntered _ s⟩
  · exact ⟨_, loadRegisters_fault _ x (Nat.lt_succ_of_le h), memFault_faultEntered _ s⟩
  · exact ⟨_, execDrw_fault x y n ⟨hn, h⟩, memFault_faultEntered _ s⟩

/-! ## Reset -/

theorem resetEvent_long {image : List Byte} (h : 3584 < image.length) (s : State) : resetEvent image s = s :=
  if_neg (Nat.not_le.mpr h)

theorem resetEvent_fits {image : List Byte} (h : image.length ≤ 3584) (s : State) : resetEvent image s =
    ((resetWith s.font image).setDraws s.draws).setSchedule s.schedule := if_pos h

/-- Settles O57: FONT ends below 0x50 and the image starts at 0x200, so neither covers the other. -/
theorem resetPlacesImage : Obligations.ResetPlacesImage := by
  refine ⟨fun image s h => resetEvent_long h s, fun image s h => ⟨_, resetEvent_fits h s, ?image, ?font, ?zero,
    resetWith_wf s.font h, rfl⟩⟩
  case image =>
    intro j hj
    rw [readByte_setSchedule, readByte_setDraws, readByte_resetWith _ _ h, if_pos (by omega), Nat.add_sub_cancel_left,
      List.getD_eq_getElem]
  case font =>
    intro a ha
    rw [readByte_setSchedule, readByte_setDraws, readByte_resetWith _ _ h, if_neg (by omega), readByte_resetWithFont,
      if_pos ha, List.getD_eq_getElem _ _ (by simpa using ha), Vector.getElem_toList]
  case zero =>
    intro a ha
    rw [readByte_setSchedule, readByte_setDraws, readByte_resetWith _ _ h, if_neg (by omega), readByte_resetWithFont,
      if_neg (by omega)]

theorem getV_resetWithFont (f : Vector Byte 80) (x : Nibble) : (resetWithFont f).getV x = 0 :=
  Vector.getElem_replicate ..

theorem getSlot_resetWithFont (f : Vector Byte 80) (j : Fin 16) : (resetWithFont f).getSlot j = 0 :=
  Vector.getElem_replicate ..

theorem getKey_resetWithFont (f : Vector Byte 80) (k : Nibble) : (resetWithFont f).getKey k = false :=
  Vector.getElem_replicate ..

theorem pixel_resetWithFont (f : Vector Byte 80) (r : Fin 32) (c : Nat) : (resetWithFont f).pixel r c = false := by
  have hrow : (resetWithFont f).fb[r] = 0 := Vector.getElem_replicate ..
  rw [State.pixel, hrow]
  exact BitVec.getMsbD_zero

/-- Settles O58: the reset state is a literal but for FONT, which is written over 0. -/
theorem resetStateValues : Obligations.ResetStateValues := by
  refine ⟨fun f => ⟨_, rfl, getV_resetWithFont f, rfl, rfl, rfl, getSlot_resetWithFont f, rfl, rfl,
    getKey_resetWithFont f, pixel_resetWithFont f, ?font, ?zero, rfl, rfl, rfl, rfl, rfl⟩, resetWithFont_default⟩
  case font =>
    intro a ha
    rw [readByte_resetWithFont, if_pos ha, List.getD_eq_getElem _ _ (by simpa using ha), Vector.getElem_toList]
  case zero =>
    intro a ha
    rw [readByte_resetWithFont, if_neg (by omega)]

end Sys2Proof.Machine
end

section
/-! SUPPORT. The display, pixel by pixel (45_display.md). -/

namespace Sys2Proof.Machine

/-! ## One row of a sprite -/

/-- Which bit of a sprite byte, counted from the left, lands in framebuffer column c when the sprite is drawn at x
(45_display.md R110). -/
def spriteBit (x : Byte) (c : Nat) : Nat := (c + 64 - x.toNat % 64) % 64

theorem rotr64_eq_rotateRight (v : Row) (n : Nat) : rotr64 v n = v.rotateRight n := rfl

/-- A sprite byte stands in the row's eight leftmost columns before the rotation. -/
theorem getMsbD_byteAtLeft (b : Byte) {k : Nat} (hk : k < 64) :
    (b.setWidth 64 <<< 56 : Row).getMsbD k = b.getMsbD k := by
  rw [BitVec.getMsbD_shiftLeft, BitVec.getMsbD_setWidth]
  simp [show 64 - 8 ≤ k + 56 by omega]

/-- Column c of a row pattern is the sprite bit that lands there, none from the ninth on. -/
theorem getMsbD_spriteRow (b x : Byte) {c : Nat} (hc : c < 64) :
    (spriteRow b x).getMsbD c = b.getMsbD (spriteBit x c) := by
  have hbit : spriteBit x c < 64 := Nat.mod_lt _ (by decide)
  rw [← getMsbD_byteAtLeft b hbit, spriteRow, rotr64_eq_rotateRight, BitVec.getMsbD_rotateRight, spriteBit]
  split
  all_goals simp only [hc, decide_true, Bool.true_and]; congr 1; omega

/-- Settles O42: column (x + k) mod 64 gets bit k from the left, and a column that gets one is such a column. -/
theorem spriteBitLandsOnColumn : Obligations.SpriteBitLandsOnColumn := by
  refine fun b x => ⟨fun k hk => ?_, fun c hc hother => ?_⟩
  · have hbit : spriteBit x ((x.toNat + k) % 64) = k := by unfold spriteBit; omega
    rw [getMsbD_spriteRow b x (Nat.mod_lt _ (by decide)), hbit]
  · have hbit : 8 ≤ spriteBit x c := by
      by_contra hlt
      exact hother _ (Nat.not_le.mp hlt) (by unfold spriteBit; omega)
    rw [getMsbD_spriteRow b x hc, BitVec.getMsbD_of_ge _ _ hbit]

/-! ## The whole sprite -/

theorem spritePixel_eq (x y : Byte) (n : Nat) (row : Nat → Byte) (r : Fin 32) (c : Nat) :
    spritePixel x y n row r c =
      (decide (spriteOffset y r < n) && (row (spriteOffset y r)).getMsbD (spriteBit x c)) := by
  rw [spritePixel, ← spriteOffset, ← spriteBit]
  by_cases hk : spriteBit x c < 8
  · simp [hk]
  · simp [BitVec.getMsbD_of_ge _ _ (Nat.le_of_not_lt hk)]

/-- The pixels depend on the sprite's own rows only. -/
theorem spritePixel_congr {x y : Byte} {n : Nat} {row row' : Nat → Byte} (h : ∀ j, j < n → row j = row' j)
    (r : Fin 32) (c : Nat) : spritePixel x y n row r c = spritePixel x y n row' r c := by
  rw [spritePixel_eq, spritePixel_eq]
  by_cases hj : spriteOffset y r < n
  · rw [h _ hj]
  · simp [hj]

/-- The pattern of the whole sprite in row r is its pixels there. -/
theorem getMsbD_patternAt (x y : Byte) (sprite : List Byte) (r : Fin 32) {c : Nat} (hc : c < 64) :
    (patternAt x y 0 sprite r).getMsbD c = spritePixel x y sprite.length (fun j => sprite.getD j 0) r c := by
  rw [patternAt, if_pos (Nat.zero_le _), Nat.sub_zero, getMsbD_spriteRow _ _ hc, spritePixel_eq]
  by_cases hj : spriteOffset y r < sprite.length
  · simp [hj]
  · rw [List.getD_eq_default _ _ (Nat.le_of_not_lt hj)]
    simp [hj]

theorem ne_zero_iff_getMsbD (v : Row) : v ≠ 0 ↔ ∃ c, c < 64 ∧ v.getMsbD c = true := by
  constructor
  · intro hv
    by_contra hnone
    exact hv (BitVec.eq_of_getMsbD_eq fun c hc => by simpa using fun h => hnone ⟨c, hc, h⟩)
  · rintro ⟨c, -, hc⟩ rfl
    simp at hc

variable {x y : Byte} {sprite : List Byte} (fb : Vector Row 32)

/-- The draw XORs each row with the sprite's pattern there. -/
theorem drawSprite_row (hlen : sprite.length ≤ 15) (r : Fin 32) :
    (drawSprite x y sprite fb).1[r] = fb[r] ^^^ patternAt x y 0 sprite r :=
  drawFrom_row x y 0 sprite fb r (by omega)

/-- The draw XORs each pixel with the sprite's. -/
theorem drawSprite_pixel (hlen : sprite.length ≤ 15) (r : Fin 32) {c : Nat} (hc : c < 64) :
    (drawSprite x y sprite fb).1[r].getMsbD c =
      (fb[r].getMsbD c ^^ spritePixel x y sprite.length (fun j => sprite.getD j 0) r c) := by
  rw [drawSprite_row fb hlen, BitVec.getMsbD_xor, getMsbD_patternAt x y sprite r hc]

/-- The draw collides where a lit pixel meets a lit sprite pixel. -/
theorem drawSprite_collides_iff (hlen : sprite.length ≤ 15) :
    (drawSprite x y sprite fb).2 = true ↔ ∃ (r : Fin 32) (c : Nat), c < 64 ∧ fb[r].getMsbD c = true ∧
      spritePixel x y sprite.length (fun j => sprite.getD j 0) r c = true := by
  rw [drawSprite, drawFrom_collides x y 0 sprite fb (by omega)]
  refine exists_congr fun r => (ne_zero_iff_getMsbD _).trans (exists_congr fun c => and_congr_right fun hc => ?_)
  rw [BitVec.getMsbD_and, Bool.and_eq_true, getMsbD_patternAt x y sprite r hc]

/-- Settles O43: a sprite of at most 15 rows puts each on a framebuffer row of its own. -/
theorem drawXorsEveryPixel : Obligations.DrawXorsEveryPixel := fun _ _ _ fb hlen =>
  ⟨fun r _ hc => drawSprite_pixel fb hlen r hc, drawSprite_collides_iff fb hlen⟩

theorem drawSprite_twice (hlen : sprite.length ≤ 15) :
    (drawSprite x y sprite (drawSprite x y sprite fb).1).1 = fb := by
  refine Vector.ext fun r hr => ?_
  have hrow := fun g => drawSprite_row (x := x) (y := y) (sprite := sprite) g hlen ⟨r, hr⟩
  have htwice := (hrow (drawSprite x y sprite fb).1).trans (congrArg (· ^^^ _) (hrow fb))
  rwa [BitVec.xor_assoc, BitVec.xor_self, BitVec.xor_zero] at htwice

/-- A row with its leftmost pixel lit: the first draw of that pixel clears it, so the second meets nothing. -/
def litCorner : Vector Row 32 := (Vector.replicate 32 0).set 0 0x8000000000000000

/-- Settles O45: after the first draw a sprite pixel is lit exactly where it was unlit before. -/
theorem drawTwiceRestoresFramebuffer : Obligations.DrawTwiceRestoresFramebuffer := by
  refine ⟨fun x y sprite fb hlen => ⟨drawSprite_twice fb hlen, ?_⟩, litCorner, by decide⟩
  rw [drawSprite_collides_iff _ hlen]
  refine exists_congr fun r => exists_congr fun c => and_congr_right fun hc => ?_
  rw [drawSprite_pixel fb hlen r hc]
  refine and_congr_left fun hlit => ?_
  rw [hlit, Bool.xor_true, Bool.not_eq_true']

/-! ## DXYN and 00E0 -/

/-- The state after DXYN in range. -/
def afterDraw (s : State) (x y n : Nibble) : State :=
  let drawn := drawSprite (s.getV x) (s.getV y) (s.mem.readBytes s.i.toNat n.toNat) s.fb
  (((s.setFb drawn.1).setV vf (flagByte drawn.2)).setRedraw true).advance

theorem exec_drw_inRange {s : State} {x y n : Nibble} (h : n.toNat = 0 ∨ s.i.toNat + n.toNat ≤ 4096) :
    exec (.drw x y n) s = .next (afterDraw s x y n) := execDrw_next x y n h

/-- The sprite of DXYN is the n bytes at I. -/
theorem spritePixel_readBytes (s : State) (x y : Byte) (n : Nat) (r : Fin 32) (c : Nat) :
    spritePixel x y (s.mem.readBytes s.i.toNat n).length (fun j => (s.mem.readBytes s.i.toNat n).getD j 0) r c =
      spritePixel x y n (fun j => s.readByte (s.i.toNat + j)) r c := by
  rw [Memory.length_readBytes]
  refine spritePixel_congr (fun j hj => ?_) r c
  have hj' : j < (s.mem.readBytes s.i.toNat n).length := by rwa [Memory.length_readBytes]
  rw [List.getD_eq_getElem _ _ hj', Memory.getElem_readBytes]
  rfl

theorem length_sprite (s : State) (n : Nibble) : (s.mem.readBytes s.i.toNat n.toNat).length ≤ 15 := by
  have := n.isLt
  rw [Memory.length_readBytes]; omega

theorem pixel_afterDraw (s : State) (x y n : Nibble) (r : Fin 32) {c : Nat} (hc : c < 64) :
    (afterDraw s x y n).pixel r c =
      (s.pixel r c ^^ spritePixel (s.getV x) (s.getV y) n.toNat (fun j => s.readByte (s.i.toNat + j)) r c) := by
  rw [← spritePixel_readBytes]
  exact drawSprite_pixel s.fb (length_sprite s n) r hc

/-- The draw collides exactly when it clears a lit pixel. -/
theorem collides_iff_cleared (s : State) (x y n : Nibble) :
    (drawSprite (s.getV x) (s.getV y) (s.mem.readBytes s.i.toNat n.toNat) s.fb).2 = true ↔
      ∃ (r : Fin 32) (c : Nat), c < 64 ∧ s.pixel r c = true ∧ (afterDraw s x y n).pixel r c = false := by
  rw [drawSprite_collides_iff _ (length_sprite s n)]
  refine exists_congr fun r => exists_congr fun c => and_congr_right fun hc => ?_
  rw [spritePixel_readBytes, pixel_afterDraw s x y n r hc]
  refine and_congr_right fun hlit => ?_
  rw [show s.pixel r c = true from hlit, Bool.true_xor, Bool.not_eq_false']

theorem getV_vf_afterDraw (s : State) (x y n : Nibble) : (afterDraw s x y n).getV vf =
    flagByte (drawSprite (s.getV x) (s.getV y) (s.mem.readBytes s.i.toNat n.toNat) s.fb).2 :=
  getV_setV_same (s.setFb _) vf _

theorem sameRegsBut_afterDraw (s : State) (x y n : Nibble) : SameRegsBut [vf] s (afterDraw s x y n) := fun j hj =>
  getV_setV_other (s.setFb _) _ (by simpa using hj)

/-- Settles O44: VF tells whether the draw collided, which is whether it cleared a lit pixel. -/
theorem drawInstrXorsSpriteAtIndex : Obligations.DrawInstrXorsSpriteAtIndex := by
  intro x y n s h
  refine ⟨_, exec_drw_inRange h, fun r c hc => pixel_afterDraw s x y n r hc, ?flag, rfl, rfl, rfl,
    sameRegsBut_afterDraw s x y n, fun _ => rfl⟩
  case flag =>
    have hvf := getV_vf_afterDraw s x y n
    have hcleared := collides_iff_cleared s x y n
    cases hcollides : (drawSprite (s.getV x) (s.getV y) (s.mem.readBytes s.i.toNat n.toNat) s.fb).2 with
    | true =>
      rw [hcollides] at hvf
      exact .inl ⟨hvf, hcleared.mp hcollides⟩
    | false =>
      rw [hcollides] at hvf
      refine .inr ⟨hvf, fun r c hc hlit => ?_⟩
      by_contra hunlit
      have := hcleared.mpr ⟨r, c, hc, hlit, Bool.eq_false_of_not_eq_true hunlit⟩
      rw [hcollides] at this; cases this

theorem exec_cls (ign : Nibble) (s : State) :
    exec (.cls ign) s = .next ((s.setFb (Vector.replicate 32 0)).setRedraw true).advance := rfl

/-- Settles O41: the row is of family 0, and the clear's framebuffer is 0 in every row. -/
theorem clearZeroesEveryRow : Obligations.ClearZeroesEveryRow :=
  ⟨decodesAs_row (.cls 0), fun ign s =>
    ⟨_, exec_cls ign s, fun _ => Vector.getElem_replicate .., rfl, rfl, rfl, fun _ => rfl⟩⟩

end Sys2Proof.Machine
end

section
/-! SUPPORT. Calls and returns, skips, the remaining register and index instructions. -/

namespace Sys2Proof.Machine

variable {s : State}

/-! ## BNNN, 2NNN, 00EE (41_control_flow.md) -/

theorem exec_jpV0 (nnn : Imm12) (s : State) :
    exec (.jpV0 nnn) s = .next (s.setPc (zextByte (s.getV v0) + zextImm12 nnn)) := rfl

/-- Settles O13: the sum fits in 16 bits. -/
theorem jumpPlusV0IsExact : Obligations.JumpPlusV0IsExact := fun nnn s =>
  ⟨_, exec_jpV0 nnn s, toNat_jpV0Target (s.getV v0) nnn, setPc_onlyPc s _⟩

/-- The state after 2NNN with SP below 15: its own address pushed, PC at NNN. -/
def afterCall (s : State) (nnn : Imm12) (h : s.sp.val < 15) : State :=
  ((s.setSp ⟨s.sp.val + 1, by omega⟩).setSlot ⟨s.sp.val + 1, by omega⟩ s.pc).setPc (zextImm12 nnn)

theorem exec_call_next (nnn : Imm12) (h : s.sp.val < 15) : exec (.call nnn) s = .next (afterCall s nnn h) :=
  execCall_next nnn h

theorem getSlot_afterCall (nnn : Imm12) (h : s.sp.val < 15) (j : Fin 16) :
    (afterCall s nnn h).getSlot j = if j = (afterCall s nnn h).sp then s.pc else s.getSlot j :=
  getSlot_setSlot (s.setSp _) _ s.pc j

/-- Settles O14: the slot the call fills is the one at its new SP. -/
theorem callPushesOwnAddress : Obligations.CallPushesOwnAddress := by
  refine fun nnn s h => ⟨_, exec_call_next nnn h, zextImm12_toNat nnn, rfl, ?_, fun j hj => ?_, rfl, fun _ => rfl⟩
  · rw [getSlot_afterCall, if_pos rfl]
  · rw [getSlot_afterCall, if_neg hj]

/-- The state after 00EE with SP above 0: PC at the popped slot. -/
def afterReturn (s : State) (h : 0 < s.sp.val) : State :=
  (s.setSp ⟨s.sp.val - 1, by omega⟩).setPc (s.getSlot s.sp)

theorem exec_ret_next (ign : Nibble) (h : 0 < s.sp.val) : exec (.ret ign) s = .next (afterReturn s h) :=
  execRet_next ign h

/-- Settles O15: the return reads the slot at the old SP. -/
theorem returnResumesAtPoppedAddress : Obligations.ReturnResumesAtPoppedAddress := fun ign _ h =>
  ⟨_, exec_ret_next ign h, rfl, Nat.sub_add_cancel h, rfl, fun _ => rfl⟩

/-- Settles O16: push fails at SP = 15 and pop at SP = 0. -/
theorem stackLimitsFault : Obligations.StackLimitsFault :=
  ⟨fun nnn _ h => ⟨_, execCall_fault nnn h, rfl⟩, fun ign _ h => ⟨_, execRet_fault ign h, rfl⟩⟩

/-- Settles O17: the return pops the slot that the call filled with its own address. -/
theorem callThenReturnResumesAtCall : Obligations.CallThenReturnResumesAtCall := by
  intro nnn ign s h
  have hpos : 0 < (afterCall s nnn h).sp.val := Nat.succ_pos _
  have hpc : (afterReturn (afterCall s nnn h) hpos).pc = s.pc := by
    show (afterCall s nnn h).getSlot (afterCall s nnn h).sp = s.pc
    rw [getSlot_afterCall, if_pos rfl]
  have hsp : (afterReturn (afterCall s nnn h) hpos).sp = s.sp := rfl
  refine ⟨_, _, exec_call_next nnn h, exec_ret_next ign hpos, hpc, hsp, ?_⟩
  rw [← hpc, ← hsp]
  rfl

/-! ## 5XY0, 9XY0, EX9E, EXA1 (42_skips.md) -/

theorem exec_seReg (x y ign : Nibble) (s : State) :
    exec (.seReg x y ign) s = .next (s.skipIf (s.getV x == s.getV y)) := rfl

theorem exec_sneReg (x y ign : Nibble) (s : State) :
    exec (.sneReg x y ign) s = .next (s.skipIf (s.getV x != s.getV y)) := rfl

/-- Settles O19: each meaning is the skip on its comparison, and reads no ignored bits. -/
theorem skipOnRegisters : Obligations.SkipOnRegisters :=
  ⟨decodesAs_row (.seReg 0 0 0), decodesAs_row (.sneReg 0 0 0), fun x y ign s =>
    ⟨skip_of_iff (exec_seReg x y ign s) beq_iff_eq, skip_of_iff (exec_sneReg x y ign s) bne_iff_ne⟩⟩

/-- With VX a key number the key skips are the skip on that key's flag. -/
theorem skipOnKey_key {x k : Nibble} (wanted : Bool) (w : Word) (h : s.getV x = zextNibble k) :
    skipOnKey wanted x w s = .next (s.skipIf (s.getKey k == wanted)) := by
  have hk : (zextNibble k).setWidth 4 = k := by
    rw [zextNibble, BitVec.setWidth_setWidth_of_le _ (by decide), BitVec.setWidth_eq]
  have hlt : (s.getV x).toNat < 16 := by
    rw [h, zextNibble, BitVec.toNat_setWidth_of_le (by decide)]; exact k.isLt
  rw [skipOnKey_next wanted x w hlt, h, hk]

/-- Settles O20: EX9E wants the key down, EXA1 up. -/
theorem skipOnKeyState : Obligations.SkipOnKeyState := fun _ _ _ h =>
  ⟨skip_of_iff (skipOnKey_key true _ h) beq_iff_eq, skip_of_iff (skipOnKey_key false _ h) beq_iff_eq⟩

/-- Settles O21: no key has such a number, whatever is wanted of it. -/
theorem keyBeyondKeyboardFaults : Obligations.KeyBeyondKeyboardFaults := fun x _ h =>
  ⟨⟨_, skipOnKey_fault true x _ h, rfl⟩, ⟨_, skipOnKey_fault false x _ h, rfl⟩⟩

/-! ## 8XY0 to 8XY3, 8XY6, 8XYE, CXNN (43_register_alu.md) -/

/-- An outcome that is a result without a flag: the register holds a byte with b's property. -/
theorem result_of {x : Nibble} {b : Byte} {a : Answer} {value : Byte → Prop} (ha : a = .next (s.result x b))
    (hb : value b) : ∃ t, a = .next t ∧ value (t.getV x) ∧ t.pc = s.pc + 2 ∧ OnlyRegsPc [x] s t := by
  refine ⟨_, ha, ?_, rfl, result_onlyRegsPc s x b⟩
  rwa [getV_result_same]

theorem exec_ldReg (x y : Nibble) (s : State) : exec (.ldReg x y) s = .next (s.result x (s.getV y)) := rfl

theorem exec_orReg (x y : Nibble) (s : State) :
    exec (.orReg x y) s = .next (s.result x (s.getV x ||| s.getV y)) := rfl

theorem exec_andReg (x y : Nibble) (s : State) :
    exec (.andReg x y) s = .next (s.result x (s.getV x &&& s.getV y)) := rfl

theorem exec_xorReg (x y : Nibble) (s : State) :
    exec (.xorReg x y) s = .next (s.result x (s.getV x ^^^ s.getV y)) := rfl

/-- Settles O23: each meaning is a result without a flag, and the bitwise operations act bit by bit. -/
theorem moveAndBitwise : Obligations.MoveAndBitwise := fun x y s =>
  ⟨result_of (value := (· = s.getV y)) (exec_ldReg x y s) rfl,
    result_of (value := fun b => ∀ k, b.getLsbD k = ((s.getV x).getLsbD k || (s.getV y).getLsbD k))
      (exec_orReg x y s) fun _ => BitVec.getLsbD_or,
    result_of (value := fun b => ∀ k, b.getLsbD k = ((s.getV x).getLsbD k && (s.getV y).getLsbD k))
      (exec_andReg x y s) fun _ => BitVec.getLsbD_and,
    result_of (value := fun b => ∀ k, b.getLsbD k = ((s.getV x).getLsbD k ^^ (s.getV y).getLsbD k))
      (exec_xorReg x y s) fun _ => BitVec.getLsbD_xor⟩

theorem exec_shrReg (x y : Nibble) (s : State) : exec (.shrReg x y) s =
    .next (s.resultWithFlag x (s.getV x >>> 1) (shiftedOutRight (s.getV x))) := rfl

theorem exec_shlReg (x y : Nibble) (s : State) : exec (.shlReg x y) s =
    .next (s.resultWithFlag x (s.getV x <<< 1) (shiftedOutLeft (s.getV x))) := rfl

theorem toNat_flagByte (c : Bool) : (flagByte c).toNat = c.toNat := by cases c <;> rfl

theorem toNat_shiftedOutRight (b : Byte) : (shiftedOutRight b).toNat = b.toNat % 2 := by
  revert b; decide

theorem toNat_shiftedOutLeft (b : Byte) : (shiftedOutLeft b).toNat = b.toNat / 128 := by
  revert b; decide

theorem toNat_shiftLeft_one (b : Byte) : (b <<< 1).toNat = b.toNat * 2 % 256 := by
  rw [BitVec.toNat_shiftLeft, Nat.shiftLeft_eq]

theorem toNat_shiftRight_one (b : Byte) : (b >>> 1).toNat = b.toNat / 2 := by
  rw [BitVec.toNat_ushiftRight, Nat.shiftRight_eq_div_pow]

/-- An outcome that is a result with a flag, the flag given as a number. -/
theorem resultWithFlag_of_toNat {x : Nibble} {b : Byte} {c : Bool} {a : Answer} {value flag : Nat}
    (ha : a = .next (s.resultWithFlag x b c)) (hb : b.toNat = value) (hc : c.toNat = flag) :
    ∃ t, a = .next t ∧ (x ≠ vf → (t.getV x).toNat = value) ∧ (t.getV vf).toNat = flag ∧ t.pc = s.pc + 2 ∧
      OnlyRegsPc [x, vf] s t := by
  refine ⟨_, ha, fun hx => ?_, ?_, rfl, resultWithFlag_onlyRegsPc s x b c⟩
  · rw [getV_resultWithFlag_dest s b c hx, hb]
  · rw [getV_resultWithFlag_vf, toNat_flagByte, hc]

/-- Settles O26: the meanings take no y. -/
theorem shiftsWriteShiftedOutBitLast : Obligations.ShiftsWriteShiftedOutBitLast :=
  ⟨decodesAs_row (.shrReg 0 0), decodesAs_row (.shlReg 0 0), fun _ _ _ _ => ⟨rfl, rfl⟩, fun x y s =>
    ⟨resultWithFlag_of_toNat (exec_shrReg x y s) (toNat_shiftRight_one _) (toNat_shiftedOutRight _),
      resultWithFlag_of_toNat (exec_shlReg x y s) (toNat_shiftLeft_one _) (toNat_shiftedOutLeft _)⟩⟩

theorem exec_rnd (x : Nibble) (nn : Byte) (s : State) :
    exec (.rnd x nn) s = .next (randomInto (Config.freeRandom s.draws) x nn s) := rfl

theorem getV_randomInto (r : Byte) (x : Nibble) (nn : Byte) : (randomInto r x nn s).getV x = r &&& nn :=
  getV_result_same (s.setDraws (s.draws + 1)) x (r &&& nn)

theorem randomInto_sameRegsBut (r : Byte) (x : Nibble) (nn : Byte) : SameRegsBut [x] s (randomInto r x nn s) :=
  (result_onlyRegsPc (s.setDraws (s.draws + 1)) x (r &&& nn)).2.1

/-- Settles O27: the byte stays the opaque one; only a mask of 0 fixes the result. -/
theorem randomByteIsMasked : Obligations.RandomByteIsMasked := by
  refine fun x nn s => ⟨_, exec_rnd x nn s, getV_randomInto _ x nn, fun hnn => ?_, rfl, rfl, rfl,
    randomInto_sameRegsBut _ x nn, fun _ => rfl⟩
  rw [getV_randomInto, hnn]
  exact BitVec.and_zero

/-! ## FX1E and FX29 (44_index_memory.md) -/

theorem toNat_addedIndex (i : Word) (b : Byte) : (i + zextByte b).toNat = (i.toNat + b.toNat) % 65536 := by
  rw [BitVec.toNat_add, zextByte_toNat]

theorem exec_addI (x : Nibble) (s : State) :
    exec (.addI x) s = .next (s.setI (s.i + zextByte (s.getV x))).advance := rfl

theorem addToIndex_true (x : Nibble) (s : State) : addToIndex true x s =
    ((s.setI (s.i + zextByte (s.getV x))).setV vf (flagByte (indexCarry s.i (s.getV x)))).advance := rfl

theorem indexCarry_iff (i : Word) (b : Byte) : indexCarry i b = true ↔ 0x0FFF < i.toNat + b.toNat :=
  decide_eq_true_iff

/-- Settles O30: the parameter's other value adds one update of VF. -/
theorem addToIndexWrapsAndKeepsVf : Obligations.AddToIndexWrapsAndKeepsVf := by
  refine fun x s => ⟨⟨_, exec_addI x s, toNat_addedIndex _ _, rfl, setI_advance_onlyIndexPc s _⟩,
    ⟨_, addToIndex_true x s, toNat_addedIndex _ _, rfl, ?_, fun y hy => ?_, rfl, fun _ => rfl⟩⟩
  · rw [getV_advance]
    refine (getV_setV_same _ vf _).trans ?_
    rw [flagByte, if_congr (indexCarry_iff _ _) rfl rfl]
  · exact getV_setV_other (s.setI _) _ (List.ne_of_not_mem_cons hy)

theorem exec_ldFont (x : Nibble) (s : State) :
    exec (.ldFont x) s = .next (s.setI (5 * zextByte (s.getV x))).advance := rfl

theorem toNat_fontPointer (b : Byte) : (5 * zextByte b : Word).toNat = 5 * b.toNat := by
  have := b.isLt
  rw [BitVec.toNat_mul, zextByte_toNat, show (5 : Word).toNat = 5 from rfl, Nat.mod_eq_of_lt (by omega)]

/-- Settles O31: five times a byte fits in 16 bits. -/
theorem fontPointerIsFiveTimes : Obligations.FontPointerIsFiveTimes := fun x s =>
  ⟨_, exec_ldFont x s, toNat_fontPointer _, rfl, setI_advance_onlyIndexPc s _⟩

end Sys2Proof.Machine
end

section
/-! SUPPORT. The key wait and the host's events (46_timers_keys.md, 60_exceptions.md R131, R132). -/

namespace Sys2Proof.Machine

variable {s : State}

theorem exec_ldVxKey (x : Nibble) (s : State) : exec (.ldVxKey x) s = .next (s.setStatus (.waitingKey x)) := rfl

/-- Settles O48: the suspension is one update, of the status. -/
theorem keyWaitSuspends : Obligations.KeyWaitSuspends := fun x s => ⟨_, exec_ldVxKey x s, rfl, rfl, fun _ => rfl⟩

theorem getKey_setKey_same (s : State) (k : Nibble) (p : Bool) : (s.setKey k p).getKey k = p := by
  rw [getKey_setKey, if_pos rfl]

theorem getKey_setKey_other (s : State) {k k' : Nibble} (p : Bool) (h : k' ≠ k) :
    (s.setKey k p).getKey k' = s.getKey k' := by
  rw [getKey_setKey, if_neg h]

theorem hostEvent_press {x k : Nibble} (hs : s.status = .waitingKey x) (hk : s.getKey k = false) :
    hostEvent (.keyEvent k true) s = afterPress s x k := by
  refine (keyEvent_waiting k true hs).trans (if_pos ?_)
  simp [hk]

/-- During the wait too a key event sets its flag and nothing else, unless it is the press of an unheld key. -/
theorem hostEvent_key_waiting {x k : Nibble} {p : Bool} (hs : s.status = .waitingKey x)
    (hk : p = false ∨ s.getKey k = true) : hostEvent (.keyEvent k p) s = s.setKey k p := by
  refine (keyEvent_waiting k p hs).trans (if_neg ?_)
  rcases hk with h | h <;> simp [h]

/-- Settles O49: each update of the press writes another field. -/
theorem pressEndsKeyWait : Obligations.PressEndsKeyWait := by
  refine fun s x k hs hk => ⟨_, hostEvent_press hs hk, rfl, ?vx, rfl, getKey_setKey_same s k true,
    fun k' hk' => getKey_setKey_other s true hk', rfl, fun y hy => ?others, fun _ => rfl⟩
  case vx =>
    have hvx : (afterPress s x k).getV x = zextNibble k := getV_setV_same (s.setKey k true) x (zextNibble k)
    rw [hvx, zextNibble, BitVec.toNat_setWidth_of_le (by decide)]
  case others => exact getV_setV_other (s.setKey k true) _ (by simpa using hy)

/-- Settles O50: none of the three is a press of an unheld key. -/
theorem otherEventsKeepWaiting : Obligations.OtherEventsKeepWaiting := by
  refine fun s x k hs => ⟨⟨_, hostEvent_key_waiting hs (.inl rfl), getKey_setKey_same s k false,
    fun k' hk' => getKey_setKey_other s false hk', rfl⟩, fun hk => ?held, ⟨_, timerTick_goesOn ?_, hs, rfl⟩⟩
  case held => rw [hostEvent_key_waiting hs (.inr hk), setKey_same hk]
  · rw [hs]; rfl

/-- Settles O51: outside the wait the event is one update of its key. -/
theorem keyEventSetsItsFlag : Obligations.KeyEventSetsItsFlag := fun s k p hs =>
  ⟨_, keyEvent_notWaiting k p hs, getKey_setKey_same s k p, fun _ hk' => getKey_setKey_other s p hk', rfl⟩

/-- Settles O52: while the run goes on each timer counts down by one, never below 0. -/
theorem tickCountsBothTimersDown : Obligations.TickCountsBothTimersDown := fun s h1 h2 =>
  ⟨_, timerTick_goesOn (final_of_goesOn h1 h2), toNat_tickDown s.dt, toNat_tickDown s.st, rfl⟩

/-- Settles O53: both events look at whether the run is over. -/
theorem stopRequestEndsRun : Obligations.StopRequestEndsRun := fun _ =>
  ⟨fun h1 h2 => stopRequest_goesOn (final_of_goesOn h1 h2),
    fun h => ⟨stopRequest_final (final_of_over h), timerTick_final (final_of_over h)⟩⟩

end Sys2Proof.Machine
end
